-- ==== Sys2Proof/Word.lean ====
section
/-! DEFINITION. The data items of the block: bytes, the 4-bit codes, the 9-bit index, and the two channels
(spec/00_scope.md sections 6 and 7, rule R6). All arithmetic is unsigned and wraps (rule R106), so the
operators `+` and `-` of `BitVec 8` are the spec's `+8` and `-8`. -/

namespace Sys2Proof

/-- `BYTE_W = 8`: the width of every data item (rule R6). -/
abbrev Byte := BitVec 8

/-- `STATE_W = DIAG_W = 4`: a state code or a diagnostic code (rule R6). -/
abbrev Nibble := BitVec 4

/-- `IDX_W = 9`: the frame-buffer index (rules R6, R13). -/
abbrev Index := BitVec 9

/-- `zext_9(v)`: a byte widened with zero bits to the width of `idx` (spec/00_scope.md section 6). -/
def zext9 (v : Byte) : Index := v.setWidth 9

/-- The two channels `ch` of the pseudocode primitives (spec/00_scope.md section 7). -/
inductive Chan where
  | host
  | bus
  deriving DecidableEq, Repr

end Sys2Proof
end

