-- ==== Sys2Proof/Config.lean ====
section
/-! DEFINITION. The parameters of rule R6, the names of the states (R72) and of the report causes (R166), the
levels of the input pins (R23), and the values the spec leaves free (OPAQUE constants: no proof can see
them). -/

namespace Sys2Proof

/-- The 16 states of the relay (rules R12, R72). The register is 4 bits and all 16 codes are used; the codes
themselves are `FsmState.code` of Decode.lean. -/
inductive FsmState where
  | startup
  | awaitHostSync
  | readHost
  | validateHost
  | discard
  | absorb
  | txBusSync
  | txBusBody
  | txBusFlush
  | awaitBusSync
  | readBus
  | validateBus
  | reportBusCsum
  | txHostSync
  | txHostBody
  | txHostFlush
  deriving DecidableEq, Repr

/-- The four causes of a diagnostic report (rule R166). -/
inductive Diag where
  | startup
  | hostCsum
  | resetAbsorbed
  | busCsum
  deriving DecidableEq, Repr

/-- What the environment drives on the block's input pins in one clock cycle (rule R23), the data pins apart:
the raw bytes are the heads of the receive streams of State. The environment is free to drive any levels in
any cycle (spec/00_scope.md section 8). -/
structure Levels where
  /-- `rst`: synchronous reset, active high (R190). -/
  rst : Bool
  /-- the environment presents the next raw byte of `host_rx` this cycle, if it has one (R24). -/
  hostRxValid : Bool
  /-- the environment takes a byte on `host_tx` this cycle (R24). -/
  hostTxReady : Bool
  /-- every byte taken on `host_tx` so far has been sent completely (R25). -/
  hostTxIdle : Bool
  /-- as `hostRxValid`, for `bus_rx`. -/
  busRxValid : Bool
  /-- as `hostTxReady`, for `bus_tx`. -/
  busTxReady : Bool
  /-- as `hostTxIdle`, for `bus_tx`. -/
  busTxIdle : Bool
  /-- "bus present/sense", never read (R27, R157). -/
  busSense : Bool
  /-- the diagnostic primitive has finished the requested report (R26). -/
  diagDone : Bool
  deriving DecidableEq, Repr, Inhabited

namespace Config

/-- `SYNC` (R6): the frame start marker, raw. -/
def sync : Byte := 0xE0#8

/-- `ESC` (R6): the escape marker, raw. -/
def esc : Byte := 0xD0#8

/-- `BROADCAST` (R6): the broadcast node address. -/
def broadcast : Byte := 0xFF#8

/-- `BUF_CAP` (R6, R44): the frame buffer's capacity in logical bytes. -/
def bufCap : Nat := 257

/-- `RESET_P0` (R6, D8): OPEN in the spec. DESIGN CHOICE (log entry 1): an uninterpreted constant, so that
whatever is proved holds for every value of it; safe. -/
opaque resetP0 : Byte

/-- `RESET_P1` (R6, D8): OPEN in the spec, as `resetP0` (log entry 1). -/
opaque resetP1 : Byte

/-- The content of a buffer cell that nothing has written: unspecified after power-up (R29, I13). DESIGN
CHOICE (log entry 2): a free value for each cell; safe. -/
opaque powerUpByte : Nat → Byte

/-- The levels the environment drives in a cycle for which State holds no scheduled sample: free inputs (R10,
spec/00_scope.md section 8). DESIGN CHOICE (log entry 3): a free value for each cycle; safe. -/
opaque freeLevels : Nat → Levels

end Config

end Sys2Proof
end

