-- ==== Sys2Proof/Syntax.lean ====
section
/-! DEFINITION. The operations of the block: one constructor for each row of spec/opcode_table.json
(rule R75; `ESC.PFX` has two rows, rule R76). The operands are those the rule of the operation names. -/

namespace Sys2Proof

/-- One operation of the block, an "instruction" in the reading of rule R5. -/
inductive Instr where
  /-- `HUNT.SYNC` (R117, R131): a raw 0xE0 taken from `ch` in a sync hunt. -/
  | huntSync (ch : Chan)
  /-- `HUNT.SKIP` (R117, R131): any other raw byte taken from `ch` in a sync hunt. -/
  | huntSkip (ch : Chan) (r : Byte)
  /-- `UNESC.PFX` (R96): a raw 0xD0 taken in body context. -/
  | unescPfx
  /-- `UNESC.LIT` (R95): any other raw byte taken in body context. -/
  | unescLit (r : Byte)
  /-- `UNESC.ARG` (R97): the raw byte after a 0xD0. -/
  | unescArg (c : Byte)
  /-- `UNESC.BATCH` (R99): the function `Unescape` of a raw sequence. -/
  | unescBatch (raw : List Byte)
  /-- `ESC.PFX` (R87), first row: the logical byte is 0xD0, the sink is `ch`. -/
  | escPfxD0 (ch : Chan)
  /-- `ESC.PFX` (R87), second row: the logical byte is 0xE0, the sink is `ch`. -/
  | escPfxE0 (ch : Chan)
  /-- `ESC.PASS` (R86): the logical byte `v` needs no escaping, the sink is `ch`. -/
  | escPass (ch : Chan) (v : Byte)
  /-- `ESC.ARG` (R88): the second beat of the pair for the logical byte `v`, the sink is `ch`. -/
  | escArg (ch : Chan) (v : Byte)
  /-- `ESC.BATCH` (R89): the function `Escape` of a logical sequence. -/
  | escBatch (logical : List Byte)
  /-- `CSUM.CLR` (R107). -/
  | csumClr
  /-- `CSUM.ADD` (R108): add the byte `din`. -/
  | csumAdd (din : Byte)
  /-- `CSUM.CMP` (R109): compare with the byte `cmp`. -/
  | csumCmp (cmp : Byte)
  /-- `CSUM.RANGE` (R105): the function `Checksum` of a sequence. -/
  | csumRange (bytes : List Byte)
  /-- `ST.STARTUP` (R116). -/
  | stStartup
  /-- `ST.AWAIT_HOST_SYNC` (R117). -/
  | stAwaitHostSync
  /-- `ST.READ_HOST` (R118). -/
  | stReadHost
  /-- `ST.VALIDATE_HOST` (R121). -/
  | stValidateHost
  /-- `ST.DISCARD` (R125). -/
  | stDiscard
  /-- `ST.ABSORB` (R126). -/
  | stAbsorb
  /-- `ST.TX_BUS_SYNC` (R128). -/
  | stTxBusSync
  /-- `ST.TX_BUS_BODY` (R129). -/
  | stTxBusBody
  /-- `ST.TX_BUS_FLUSH` (R130). -/
  | stTxBusFlush
  /-- `ST.AWAIT_BUS_SYNC` (R131). -/
  | stAwaitBusSync
  /-- `ST.READ_BUS` (R132). -/
  | stReadBus
  /-- `ST.VALIDATE_BUS` (R133). -/
  | stValidateBus
  /-- `ST.REPORT_BUS_CSUM` (R134). -/
  | stReportBusCsum
  /-- `ST.TX_HOST_SYNC` (R135). -/
  | stTxHostSync
  /-- `ST.TX_HOST_BODY` (R136). -/
  | stTxHostBody
  /-- `ST.TX_HOST_FLUSH` (R137). -/
  | stTxHostFlush
  /-- `DIR.ACQ` (R150). -/
  | dirAcq
  /-- `DIR.REL` (R151). -/
  | dirRel
  /-- `STAT.ON` (R153). -/
  | statOn
  /-- `STAT.OFF` (R154). -/
  | statOff
  /-- `SENSE.NOP` (R157): the level of `bus_sense`, which nothing reads. -/
  | senseNop (busSense : Bool)
  /-- `DIAG.STARTUP` (R166, R170). -/
  | diagStartup
  /-- `DIAG.HOST_CSUM` (R166, R167). -/
  | diagHostCsum
  /-- `DIAG.RESET_ABSORBED` (R166, R168). -/
  | diagResetAbsorbed
  /-- `DIAG.BUS_CSUM` (R166, R169). -/
  | diagBusCsum
  deriving DecidableEq, Repr

end Sys2Proof
end

