-- ==== Sys2Proof/WellFormed.lean ====
section
/-! DEFINITION. Which operands an operation may carry: the conditions of the opcode table's rows that its
operand bits do not say by themselves (rules R63, R65, R76), and the logical frame of rule R60. -/

namespace Sys2Proof

/-- A logical byte that the escaper sends as a pair (rule R63). -/
def isReserved (v : Byte) : Bool := v == Config.esc || v == Config.sync

/-- An operation whose operand is one that selects it: a skipped byte is not the sync byte, a literal is not
0xD0, a passed byte is neither reserved value, and the byte of a second beat is one of the two (R63, R65,
R85). -/
def Instr.wf : Instr → Bool
  | .huntSync _ => true
  | .huntSkip _ r => r != Config.sync
  | .unescPfx => true
  | .unescLit r => r != Config.esc
  | .unescArg _ => true
  | .unescBatch _ => true
  | .escPfxD0 _ => true
  | .escPfxE0 _ => true
  | .escPass _ v => !isReserved v
  | .escArg _ v => isReserved v
  | .escBatch _ => true
  | .csumClr => true
  | .csumAdd _ => true
  | .csumCmp _ => true
  | .csumRange _ => true
  | .stStartup => true
  | .stAwaitHostSync => true
  | .stReadHost => true
  | .stValidateHost => true
  | .stDiscard => true
  | .stAbsorb => true
  | .stTxBusSync => true
  | .stTxBusBody => true
  | .stTxBusFlush => true
  | .stAwaitBusSync => true
  | .stReadBus => true
  | .stValidateBus => true
  | .stReportBusCsum => true
  | .stTxHostSync => true
  | .stTxHostBody => true
  | .stTxHostFlush => true
  | .dirAcq => true
  | .dirRel => true
  | .statOn => true
  | .statOff => true
  | .senseNop _ => true
  | .diagStartup => true
  | .diagHostCsum => true
  | .diagResetAbsorbed => true
  | .diagBusCsum => true

/-- A logical frame after its sync byte (rule R60). The fields are any bytes: `Frame.wf` of Decode.lean says
when they make a well-formed frame. -/
structure Frame where
  node : Byte
  length : Byte
  payload : List Byte
  /-- the field `checksum` of R60. -/
  check : Byte
  deriving DecidableEq, Repr

end Sys2Proof
end

