-- ==== Sys2Proof/Decode.lean ====
section
/-! DEFINITION. The encodings of spec/30_encoding.md: state codes (R72), diagnostic codes (R166), the byte
classes of each context (R65, R76), the wire encoding of a frame (R62, R63, R89, R99), the decoder, and after
it the encoder. Which row of the opcode table a pattern of bits selects depends on the row's context as well
as on the bits (R76), so the decoder takes the context. -/

namespace Sys2Proof

/-! ### Codes -/

/-- The state codes of rule R72. -/
def FsmState.code : FsmState → Nibble
  | .startup => 0x0#4
  | .awaitHostSync => 0x1#4
  | .readHost => 0x2#4
  | .validateHost => 0x3#4
  | .discard => 0x4#4
  | .absorb => 0x5#4
  | .txBusSync => 0x6#4
  | .txBusBody => 0x7#4
  | .txBusFlush => 0x8#4
  | .awaitBusSync => 0x9#4
  | .readBus => 0xA#4
  | .validateBus => 0xB#4
  | .reportBusCsum => 0xC#4
  | .txHostSync => 0xD#4
  | .txHostBody => 0xE#4
  | .txHostFlush => 0xF#4

/-- The state a code of rule R72 stands for: all 16 codes are used (R12). -/
def FsmState.ofCode (c : Nibble) : FsmState :=
  match c.toNat with
  | 0 => .startup
  | 1 => .awaitHostSync
  | 2 => .readHost
  | 3 => .validateHost
  | 4 => .discard
  | 5 => .absorb
  | 6 => .txBusSync
  | 7 => .txBusBody
  | 8 => .txBusFlush
  | 9 => .awaitBusSync
  | 10 => .readBus
  | 11 => .validateBus
  | 12 => .reportBusCsum
  | 13 => .txHostSync
  | 14 => .txHostBody
  | _ => .txHostFlush

/-- The diagnostic codes of rules R6 and R166. -/
def Diag.code : Diag → Nibble
  | .startup => 1#4
  | .hostCsum => 2#4
  | .resetAbsorbed => 3#4
  | .busCsum => 4#4

/-! ### The wire encoding -/

/-- `Escape` (R89). -/
def escape : List Byte → List Byte
  | [] => []
  | v :: a => if isReserved v then Config.esc :: (v - 1#8) :: escape a else v :: escape a

/-- `Unescape` (R99): the logical bytes produced, and whether a 0xD0 is outstanding at the end. -/
def unescape : List Byte → List Byte × Bool
  | [] => ([], false)
  | [r] => if r = Config.esc then ([], true) else ([r], false)
  | r :: c :: s =>
    if r = Config.esc then ((c + 1#8) :: (unescape s).1, (unescape s).2)
    else (r :: (unescape (c :: s)).1, (unescape (c :: s)).2)

/-- `Checksum(A) = sum(A) mod 256` (R105). -/
def checksum (a : List Byte) : Byte := BitVec.ofNat 8 ((a.map BitVec.toNat).sum)

/-- The logical bytes `B` of a frame after sync, in order (R60, R62). -/
def Frame.logical (f : Frame) : List Byte := f.node :: f.length :: (f.payload ++ [f.check])

/-- `Wire(frame) = [0xE0] ++ Escape(B)` (R62): the sync byte raw (R92), every other byte escaped. -/
def Frame.wire (f : Frame) : List Byte := Config.sync :: escape f.logical

/-- `length` counts the payload bytes and the checksum byte (R61), whatever the checksum byte is. -/
def Frame.counted (f : Frame) : Bool := f.length.toNat == f.payload.length + 1

/-- A well-formed frame (R60, R61): `length` counts right and the checksum invariant holds. -/
def Frame.wf (f : Frame) : Bool :=
  f.counted && f.check == checksum (f.node :: f.length :: f.payload)

/-- The pseudo-operation `FRAME(n; p0 .. pk)` of rule R77. -/
def Frame.make (n : Byte) (p : List Byte) : Frame :=
  { node := n, length := BitVec.ofNat 8 (p.length + 1), payload := p,
    check := checksum (n :: BitVec.ofNat 8 (p.length + 1) :: p) }

/-- The rest of a raw stream after the first sync byte: the hunt (R117, R131). -/
def afterSync : List Byte → Option (List Byte)
  | [] => none
  | r :: s => if r = Config.sync then some s else afterSync s

/-- The first `n` logical bytes of a raw stream and the raw bytes after them (R94, R99): `none` where the stream
ends before them, which is where the block waits (R71). -/
def takeLogical : Nat → List Byte → Option (List Byte × List Byte)
  | 0, s => some ([], s)
  | _ + 1, [] => none
  | n + 1, r :: s =>
    if r = Config.esc then
      match s with
      | [] => none
      | c :: t => (takeLogical n t).map fun (a, rest) => ((c + 1#8) :: a, rest)
    else (takeLogical n s).map fun (a, rest) => (r :: a, rest)

/-- THE FRAME DECODER (R61, R67, R120): hunt the sync byte, take `node` and `length`, then exactly `length` further
logical bytes, the last of them the checksum byte. `none` where the stream ends first. A frame whose length
byte is 0 has no trailing byte and is none of R60's frames (R61): it is read by the relay (R120) and not here (DESIGN CHOICE, safe, log entry 13). -/
def decodeFrame (s : List Byte) : Option (Frame × List Byte) :=
  match afterSync s with
  | none => none
  | some t =>
    match takeLogical 2 t with
    | some ([n, l], u) =>
      match takeLogical l.toNat u with
      | some (body, rest) =>
        match body.getLast? with
        | some c => some ({ node := n, length := l, payload := body.dropLast, check := c }, rest)
        | none => none
      | none => none
    | _ => none

/-! ### The classes of a byte (R65, R85) -/

/-- The class of a raw byte in the hunt context of channel `ch` (R65). -/
def decodeHunt (ch : Chan) (r : Byte) : Instr :=
  if r = Config.sync then .huntSync ch else .huntSkip ch r

/-- The class of a raw byte in the body and argument contexts (R65): `pending` is `esc_rx_pending`. -/
def decodeBody (pending : Bool) (r : Byte) : Instr :=
  if pending then .unescArg r else if r = Config.esc then .unescPfx else .unescLit r

/-- The escaper's operation for the logical byte `v` (R85): `pending` is `esc_tx_pending`. -/
def decodeTx (ch : Chan) (pending : Bool) (v : Byte) : Instr :=
  if pending then .escArg ch v
  else if v = Config.esc then .escPfxD0 ch
  else if v = Config.sync then .escPfxE0 ch
  else .escPass ch v

/-- The step of a state (R72, last column but one). -/
def stepInstr : FsmState → Instr
  | .startup => .stStartup
  | .awaitHostSync => .stAwaitHostSync
  | .readHost => .stReadHost
  | .validateHost => .stValidateHost
  | .discard => .stDiscard
  | .absorb => .stAbsorb
  | .txBusSync => .stTxBusSync
  | .txBusBody => .stTxBusBody
  | .txBusFlush => .stTxBusFlush
  | .awaitBusSync => .stAwaitBusSync
  | .readBus => .stReadBus
  | .validateBus => .stValidateBus
  | .reportBusCsum => .stReportBusCsum
  | .txHostSync => .stTxHostSync
  | .txHostBody => .stTxHostBody
  | .txHostFlush => .stTxHostFlush

/-- The step a state code selects (R72, R75). -/
def decodeFsm (c : Nibble) : Instr := stepInstr (FsmState.ofCode c)

/-- The report a diagnostic code stands for (R166); 0 and 5 to 15 are reserved (I14). -/
def Diag.ofCode (c : Nibble) : Option Diag :=
  match c.toNat with
  | 1 => some .startup
  | 2 => some .hostCsum
  | 3 => some .resetAbsorbed
  | 4 => some .busCsum
  | _ => none

/-- The operation of a report cause (R75, last row). -/
def diagInstr : Diag → Instr
  | .startup => .diagStartup
  | .hostCsum => .diagHostCsum
  | .resetAbsorbed => .diagResetAbsorbed
  | .busCsum => .diagBusCsum

/-! ### The decoder -/

/-- The `context` column of the opcode table (R76). The formats `raw_byte_hunt`, `raw_byte_body`,
`raw_byte_arg`, `logical_byte_tx`, `fsm_state` and `diag_code` are the first ones; the others are the
contexts of the rows of format `internal`, which no bits select. -/
inductive Ctx where
  /-- a state that takes no byte (R65, last row). -/
  | noByte
  /-- a raw byte in a sync hunt on `ch`. -/
  | hunt (ch : Chan)
  /-- a raw byte in a read state, `esc_rx_pending = 0`. -/
  | body
  /-- a raw byte in a read state, `esc_rx_pending = 1`. -/
  | arg
  /-- the logical byte `buf[idx]` toward `ch`, `esc_tx_pending = 0`. -/
  | tx (ch : Chan)
  /-- the logical byte `buf[idx]` toward `ch`, `esc_tx_pending = 1`. -/
  | txArg (ch : Chan)
  /-- the state register. -/
  | fsm
  /-- `diag_code`, while `diag_req = 1`. -/
  | diag
  /-- the start of a validate step. -/
  | validateStart
  /-- one byte of `buf[0..length]` in a validate step. -/
  | validateByte
  /-- the end of a validate step: the byte `buf[length + 1]`. -/
  | validateEnd
  /-- the direction part of the transition VALIDATE_HOST to TX_BUS_SYNC. -/
  | forwardDir
  /-- the status part of the same transition. -/
  | forwardStatus
  /-- the completion of `Flush(bus)`. -/
  | busFlushed
  /-- the completion of `Flush(host)`. -/
  | hostFlushed
  /-- the input `bus_sense`. -/
  | sense
  /-- the argument of `Escape`. -/
  | escapeArg
  /-- the argument of `Unescape`. -/
  | unescapeArg
  /-- the argument of `Checksum`. -/
  | checksumArg
  deriving DecidableEq, Repr

/-- The receive context of a state and `esc_rx_pending` (R65). -/
def rxCtx : FsmState → Bool → Ctx
  | .awaitHostSync, _ => .hunt .host
  | .awaitBusSync, _ => .hunt .bus
  | .readHost, false => .body
  | .readBus, false => .body
  | .readHost, true => .arg
  | .readBus, true => .arg
  | _, _ => .noByte

/-- Why a word is rejected. -/
inductive Reject where
  /-- the state takes no byte (R65, last row). -/
  | noByteTaken
  /-- the context needs a byte and none is there. -/
  | missingByte
  /-- a 4-bit code carried in a byte has bits above it. -/
  | codeTooWide
  /-- a diagnostic code that is never driven (R166, I14). -/
  | reservedDiagCode
  deriving DecidableEq, Repr

/-- The decoder's answer: an operation and the bytes after it, or a rejection by name. -/
inductive Decoded where
  | ok (i : Instr) (rest : List Byte)
  | reject (why : Reject)
  deriving DecidableEq, Repr

/-- The operation that a one-byte word selects in a context that needs one byte. -/
def decodeByte (c : Ctx) (b : Byte) : Decoded :=
  match c with
  | .hunt ch => .ok (decodeHunt ch b) []
  | .body => .ok (decodeBody false b) []
  | .arg => .ok (decodeBody true b) []
  | .tx ch => .ok (decodeTx ch false b) []
  | .txArg ch => .ok (decodeTx ch true b) []
  | .fsm => if b.toNat < 16 then .ok (decodeFsm (b.setWidth 4)) [] else .reject .codeTooWide
  | .diag =>
    if b.toNat < 16 then
      match Diag.ofCode (b.setWidth 4) with
      | some d => .ok (diagInstr d) []
      | none => .reject .reservedDiagCode
    else .reject .codeTooWide
  | .validateByte => .ok (.csumAdd b) []
  | .validateEnd => .ok (.csumCmp b) []
  | .sense => if b.toNat < 2 then .ok (.senseNop (b == 1#8)) [] else .reject .codeTooWide
  | _ => .reject .noByteTaken

/-- `rest` put after what a one-byte word decodes to. -/
def Decoded.withRest (rest : List Byte) : Decoded → Decoded
  | .ok i t => .ok i (t ++ rest)
  | .reject why => .reject why

/-- THE DECODER (R65, R75, R76): the operation that the bytes select in a context, total on any bytes. -/
def decode (c : Ctx) (w : List Byte) : Decoded :=
  match c with
  | .noByte => .reject .noByteTaken
  | .validateStart => .ok .csumClr w
  | .forwardDir => .ok .dirAcq w
  | .forwardStatus => .ok .statOn w
  | .busFlushed => .ok .dirRel w
  | .hostFlushed => .ok .statOff w
  | .escapeArg => .ok (.escBatch w) []
  | .unescapeArg => .ok (.unescBatch w) []
  | .checksumArg => .ok (.csumRange w) []
  | c =>
    match w with
    | [] => .reject .missingByte
    | b :: rest => (decodeByte c b).withRest rest

/-! ### The encoder -/

/-- The context in which an operation is selected (the `context` column of its row). -/
def Instr.ctx : Instr → Ctx
  | .huntSync ch => .hunt ch
  | .huntSkip ch _ => .hunt ch
  | .unescPfx => .body
  | .unescLit _ => .body
  | .unescArg _ => .arg
  | .unescBatch _ => .unescapeArg
  | .escPfxD0 ch => .tx ch
  | .escPfxE0 ch => .tx ch
  | .escPass ch _ => .tx ch
  | .escArg ch _ => .txArg ch
  | .escBatch _ => .escapeArg
  | .csumClr => .validateStart
  | .csumAdd _ => .validateByte
  | .csumCmp _ => .validateEnd
  | .csumRange _ => .checksumArg
  | .stStartup => .fsm
  | .stAwaitHostSync => .fsm
  | .stReadHost => .fsm
  | .stValidateHost => .fsm
  | .stDiscard => .fsm
  | .stAbsorb => .fsm
  | .stTxBusSync => .fsm
  | .stTxBusBody => .fsm
  | .stTxBusFlush => .fsm
  | .stAwaitBusSync => .fsm
  | .stReadBus => .fsm
  | .stValidateBus => .fsm
  | .stReportBusCsum => .fsm
  | .stTxHostSync => .fsm
  | .stTxHostBody => .fsm
  | .stTxHostFlush => .fsm
  | .dirAcq => .forwardDir
  | .dirRel => .busFlushed
  | .statOn => .forwardStatus
  | .statOff => .hostFlushed
  | .senseNop _ => .sense
  | .diagStartup => .diag
  | .diagHostCsum => .diag
  | .diagResetAbsorbed => .diag
  | .diagBusCsum => .diag

/-- THE ENCODER: the bytes of an operation, written from the `match` and `fields` columns of its row; a 4-bit
code stands in the low half of a byte. -/
def encode : Instr → List Byte
  | .huntSync _ => [0xE0#8]
  | .huntSkip _ r => [r]
  | .unescPfx => [0xD0#8]
  | .unescLit r => [r]
  | .unescArg c => [c]
  | .unescBatch raw => raw
  | .escPfxD0 _ => [0xD0#8]
  | .escPfxE0 _ => [0xE0#8]
  | .escPass _ v => [v]
  | .escArg _ v => [v]
  | .escBatch logical => logical
  | .csumClr => []
  | .csumAdd din => [din]
  | .csumCmp cmp => [cmp]
  | .csumRange bytes => bytes
  | .stStartup => [0x00#8]
  | .stAwaitHostSync => [0x01#8]
  | .stReadHost => [0x02#8]
  | .stValidateHost => [0x03#8]
  | .stDiscard => [0x04#8]
  | .stAbsorb => [0x05#8]
  | .stTxBusSync => [0x06#8]
  | .stTxBusBody => [0x07#8]
  | .stTxBusFlush => [0x08#8]
  | .stAwaitBusSync => [0x09#8]
  | .stReadBus => [0x0A#8]
  | .stValidateBus => [0x0B#8]
  | .stReportBusCsum => [0x0C#8]
  | .stTxHostSync => [0x0D#8]
  | .stTxHostBody => [0x0E#8]
  | .stTxHostFlush => [0x0F#8]
  | .dirAcq => []
  | .dirRel => []
  | .statOn => []
  | .statOff => []
  | .senseNop b => [if b then 1#8 else 0#8]
  | .diagStartup => [0x01#8]
  | .diagHostCsum => [0x02#8]
  | .diagResetAbsorbed => [0x03#8]
  | .diagBusCsum => [0x04#8]

/-! ### The table read without a context -/

/-- The context in which a bare byte of the opcode table is read. DESIGN CHOICE (log entry 4; unsafe): the table's rows
are told apart by context as well as by bits (R76), and where only the bits are given the first row of the
table with a mask that matches them is taken (HUNT.SYNC, UNESC.PFX, the 16 state rows), and else the first
row without one (HUNT.SKIP). -/
def tableCtx (b : Byte) : Ctx :=
  if b = Config.sync then .hunt .host
  else if b = Config.esc then .body
  else if b.toNat < 16 then .fsm
  else .hunt .host

/-- The instruction the decoder reads from the bits `w` of one row of the opcode table: every row is at most
one byte wide. -/
def decodeTableWord (nbits w : Nat) : Option Instr :=
  if 0 < nbits ∧ nbits ≤ 8 ∧ w < 256 then
    match decode (tableCtx (BitVec.ofNat 8 w)) [BitVec.ofNat 8 w] with
    | .ok i _ => some i
    | .reject _ => none
  else none

end Sys2Proof
end

