-- ==== Sys2Proof/Machine/State.lean ====
section
/-! DEFINITION. The state of the block (rule R10), the streams and input levels the environment holds for it
(R22, R23), the observation (R8), the reasons a step can stop, and the state after reset (R29). Plain data. -/

namespace Sys2Proof.Machine

/-- An event of the trace (rule R8). -/
inductive Event where
  /-- `HRX(b)`: a raw byte taken from the host stream. -/
  | hrx (b : Byte)
  /-- `BRX(b)`: a raw byte taken from the bus stream. -/
  | brx (b : Byte)
  /-- `HTX(b)`: a raw byte handed to the host stream. -/
  | htx (b : Byte)
  /-- `BTX(b)`: a raw byte handed to the bus stream. -/
  | btx (b : Byte)
  /-- `HFLUSH`. -/
  | hflush
  /-- `BFLUSH`. -/
  | bflush
  /-- `DIAG(n)`: a report delivered. -/
  | diag (code : Nibble)
  /-- `DIR(v)`: the output `bus_dir` changed to `v`. -/
  | dir (v : Bool)
  /-- `STATUS(v)`: the output `status` changed to `v`. -/
  | status (v : Bool)
  deriving DecidableEq, Repr

/-- The combinational outputs of the operations, as the last operation left them: the MODEL's own (log entry
5). The spec stores none of them; each is written by the operation that produces it before it is read. -/
structure Outputs where
  /-- `have` and `v` of the unescaper (R94): the logical byte produced, if any. -/
  unescaped : Option Byte
  /-- `advance` of the escaper (R85). -/
  advance : Bool
  /-- `equal` of the checksum adder (R109). -/
  equal : Bool
  /-- the sequence `ESC.BATCH` or `UNESC.BATCH` returns (R89, R99). -/
  batch : List Byte
  /-- `pending` of `UNESC.BATCH` (R99). -/
  batchPending : Bool
  /-- the value `CSUM.RANGE` returns (R105). -/
  rangeSum : Byte
  deriving DecidableEq, Repr

/-- The machine: the registers and the buffer of rule R10, then what the environment holds for the block, then
the model's own fields. -/
structure State where
  /-- `state`, 4 bits (R12): the program counter. -/
  state : FsmState
  /-- `buf[0..256]` (R10, R43): the listed cells, addresses strictly rising. -/
  buf : List Host.Cell
  /-- `idx`, 9 bits (R13). -/
  idx : Index
  /-- `csum`, 8 bits (R14). -/
  csum : Byte
  /-- `esc_rx_pending` (R15). -/
  escRxPending : Bool
  /-- `esc_tx_pending` (R16). -/
  escTxPending : Bool
  /-- output `bus_dir` (R17). -/
  busDir : Bool
  /-- output `status` (R18). -/
  status : Bool
  /-- output `diag_req` (R19). -/
  diagReq : Bool
  /-- output `diag_code`, 4 bits (R19). -/
  diagCode : Nibble
  /-- the input stream `host_rx` (R22): the raw bytes the environment has yet to hand over, in order (R28, R51). -/
  hostRx : List Byte
  /-- the input stream `bus_rx` (R22), as `hostRx`. -/
  busRx : List Byte
  /-- the input levels of the present cycle and of those after it, as far as they are laid down (R23). -/
  schedule : List Levels
  /-- MODEL's own (log entry 3): the clock cycles run so far, which the free levels depend on. -/
  cycle : Nat
  /-- MODEL's own (log entry 5): the operations' combinational outputs. -/
  out : Outputs
  /-- MODEL's own (log entry 6): the events of the present step, in a fixed order. -/
  now : List Event
  /-- the event trace of the present run (R8, log entry 6): the events of each earlier step that had any. The block
  never reads it. -/
  trace : List (List Event)
  /-- the traces of the runs that a reset has ended, oldest first (R192, log entry 7). The block never reads them. -/
  runs : List (List (List Event))
  /-- MODEL's own (log entry 7): the cycle before was a reset cycle, so that a further one belongs to the same
  reset. The block never reads it. -/
  resetHeld : Bool
  deriving DecidableEq, Repr

/-- Why a step faults. -/
inductive Fault where
  /-- Raised by the body-transmit and read steps when `idx` names a cell outside `buf[0..256]`, a place the spec
  says does not exist (R10, R22). No reachable state raises it (R44, R49). Safe: the machine stops where the
  block has no behaviour (DESIGN CHOICE, log entry 12). -/
  | noSuchCell (index : Nat)
  deriving DecidableEq, Repr

/-- Why a step is refused. -/
inductive Refusal where
  /-- Raised by `exec` alone, for an operation that has no meaning yet; none is left. Safe. -/
  | notModelled (mnemonic : String)
  deriving DecidableEq, Repr

/-- The operations' outputs before any operation has run. DESIGN CHOICE (log entry 5; unsafe): no rule reads them. -/
def Outputs.idle : Outputs :=
  { unescaped := none, advance := false, equal := false, batch := [], batchPending := false, rangeSum := 0#8 }

/-- The machine right after reset (R29): in `STARTUP` with the startup report in progress, the outputs inactive,
no cell of `buf` listed (log entry 2), and no stimulus placed (DESIGN CHOICE, unsafe, log entry 3). -/
def State.reset : State :=
  { state := .startup
    buf := []
    idx := 0#9
    csum := 0#8
    escRxPending := false
    escTxPending := false
    busDir := false
    status := false
    diagReq := true
    diagCode := 1#4
    hostRx := []
    busRx := []
    schedule := []
    cycle := 0
    out := Outputs.idle
    now := []
    trace := []
    runs := []
    resetHeld := true }

end Sys2Proof.Machine
end

