-- ==== Sys2Proof/Machine/Ops.lean ====
section
/-! DEFINITION. The named operations every meaning is written over: the frame buffer (R40, R43), the
primitives `Recv`, `Send`, `Flush` (spec/00_scope.md section 7), starting and delivering a report (R177,
R178), the two output registers (R149 to R154), and reset (R190). -/

namespace Sys2Proof.Machine

/-! ### The frame buffer -/

/-- The listed value of a cell, if any. -/
def Memory.read (a : Nat) : List Host.Cell → Option Byte
  | [] => none
  | (k, v) :: m => if k = a then some v else Memory.read a m

/-- `buf[a] <- v`, keeping the addresses strictly rising. -/
def Memory.write (a : Nat) (v : Byte) : List Host.Cell → List Host.Cell
  | [] => [(a, v)]
  | (k, w) :: m =>
    if a < k then (a, v) :: (k, w) :: m
    else if a = k then (a, v) :: m
    else (k, w) :: Memory.write a v m

/-- The addresses rise strictly, start at `lo` or above, and lie in the buffer. -/
def Memory.wfFrom (lo : Nat) : List Host.Cell → Bool
  | [] => true
  | (k, _) :: m => decide (lo ≤ k) && decide (k < Config.bufCap) && Memory.wfFrom (k + 1) m

/-- The canonical form of the buffer. What an unlisted cell reads as is no value of the list's, so no entry can
equal it (log entry 2). -/
def Memory.wf (m : List Host.Cell) : Bool := Memory.wfFrom 0 m

/-- `MemRead(a, 1)`: the byte `buf[a]`; a cell nothing has written holds a free value (R29, I13). -/
def State.cell (s : State) (a : Nat) : Byte := (Memory.read a s.buf).getD (Config.powerUpByte a)

/-- `MemWrite(a, 1, v)`. -/
def State.setCell (s : State) (a : Nat) (v : Byte) : State := { s with buf := Memory.write a v s.buf }

/-- Whether something has written cell `a`. -/
def State.written (s : State) (a : Nat) : Bool := (Memory.read a s.buf).isSome

/-! ### Events and input levels -/

/-- Append an event to those of the present step (R8). -/
def State.emit (s : State) (e : Event) : State := { s with now := s.now ++ [e] }

/-- The input levels of the present cycle (R23): the scheduled sample, or free ones where none is scheduled. -/
def State.levels (s : State) : Levels :=
  match s.schedule with
  | l :: _ => l
  | [] => Config.freeLevels s.cycle

/-! ### The stream primitives -/

/-- `Recv(ch)` (R24, R47, R51): take the next raw byte the environment presents, with its event; `none` while it
presents none. -/
def recv (ch : Chan) (s : State) : Option (Byte × State) :=
  match ch with
  | .host =>
    match s.levels.hostRxValid, s.hostRx with
    | true, r :: q => some (r, State.emit { s with hostRx := q } (.hrx r))
    | _, _ => none
  | .bus =>
    match s.levels.busRxValid, s.busRx with
    | true, r :: q => some (r, State.emit { s with busRx := q } (.brx r))
    | _, _ => none

/-- The event of a raw byte handed to `ch_tx` (R8). -/
def txEvent : Chan → Byte → Event
  | .host, b => .htx b
  | .bus, b => .btx b

/-- The level `ch_tx_ready` (R23). -/
def State.txReady (s : State) : Chan → Bool
  | .host => s.levels.hostTxReady
  | .bus => s.levels.busTxReady

/-- The level `ch_tx_idle` (R23, R25). -/
def State.txIdle (s : State) : Chan → Bool
  | .host => s.levels.hostTxIdle
  | .bus => s.levels.busTxIdle

/-- `Send(ch, v)` (R24): hand over a raw byte, with its event; `none` while the environment takes none. -/
def send (ch : Chan) (v : Byte) (s : State) : Option State :=
  if s.txReady ch then some (s.emit (txEvent ch v)) else none

/-- The event of a flush (R8). -/
def flushEvent : Chan → Event
  | .host => .hflush
  | .bus => .bflush

/-- `Flush(ch)` (R25, R52): `none` while `ch_tx_idle = 0`. -/
def flush (ch : Chan) (s : State) : Option State :=
  if s.txIdle ch then some (s.emit (flushEvent ch)) else none

/-- A step whose primitive is blocked does not fire and changes nothing (R7). -/
def orBlocked (s : State) (fired : Option State) : State := fired.getD s

/-! ### The output registers -/

/-- `bus_dir <- v`, with `DIR(v)` when the output changes (R8, R150, R151). -/
def setBusDir (v : Bool) (s : State) : State :=
  if s.busDir = v then s else State.emit { s with busDir := v } (.dir v)

/-- `status <- v`, with `STATUS(v)` when the output changes (R8, R153, R154). -/
def setStatus (v : Bool) (s : State) : State :=
  if s.status = v then s else State.emit { s with status := v } (.status v)

/-! ### Reports: the counterpart of taking an exception and of returning from it -/

/-- The reporting state of a cause (R166, R177). -/
def reportingState : Diag → FsmState
  | .startup => .startup
  | .hostCsum => .discard
  | .resetAbsorbed => .absorb
  | .busCsum => .reportBusCsum

/-- Where control goes when the report has been delivered (R166, R178). -/
def afterReport : Diag → FsmState
  | .startup => .awaitHostSync
  | .hostCsum => .awaitHostSync
  | .resetAbsorbed => .awaitHostSync
  | .busCsum => .txHostSync

/-- STARTING A REPORT (R177): the code and the request are driven and control goes to the cause's reporting
state; nothing is saved. -/
def startReport (d : Diag) (s : State) : State :=
  { s with diagCode := d.code, diagReq := true, state := reportingState d }

/-- DELIVERING A REPORT (R26, R178): once `diag_done = 1`, the event, the request withdrawn, and the fixed next
state; the bus-checksum report also rewinds `idx` for the forwarding (R134). Blocked before that. -/
def deliverReport (d : Diag) (s : State) : State :=
  if s.levels.diagDone then
    State.emit
      { s with
        diagReq := false
        state := afterReport d
        idx := if d = .busCsum then 0#9 else s.idx }
      (.diag d.code)
  else s

/-- `Report(code)` (spec/00_scope.md section 7) one handshake at a time (DESIGN CHOICE, log entry 8): deliver the report if it is in
progress, else start it. -/
def report (d : Diag) (s : State) : State :=
  if s.diagReq && s.diagCode == d.code then deliverReport d s else startReport d s

/-! ### Reset -/

/-- What a rising clock edge with `rst = 1` does (R190): every register to its value of R29, `buf` left as it
was, nothing of the environment touched (R193), and the events that the forced outputs imply (R192). -/
def resetBlock (s : State) : State :=
  let t := setStatus false (setBusDir false s)
  startReport .startup
    { t with idx := 0#9, csum := 0#8, escRxPending := false, escTxPending := false }

end Sys2Proof.Machine
end

