-- ==== Sys2Proof/Machine/Arbiter.lean ====
section
/-! DEFINITION. The rs485_transceiver_arbiter sub-block (spec/44_rs485_transceiver_arbiter.md): the meanings of
`DIR.*`, `STAT.*` and `SENSE.NOP`. -/

namespace Sys2Proof.Machine

/-- `DIR.ACQ` (R150): `bus_dir <- 1`, unconditionally. -/
def execDirAcq (s : State) : Host.Outcome State Fault Refusal :=
  .next (setBusDir true s)

/-- `DIR.REL` (R151): `bus_dir <- 0`. -/
def execDirRel (s : State) : Host.Outcome State Fault Refusal :=
  .next (setBusDir false s)

/-- `STAT.ON` (R153): `status <- 1`. -/
def execStatOn (s : State) : Host.Outcome State Fault Refusal :=
  .next (setStatus true s)

/-- `STAT.OFF` (R154): `status <- 0`. -/
def execStatOff (s : State) : Host.Outcome State Fault Refusal :=
  .next (setStatus false s)

/-- `SENSE.NOP` (R157): nothing, whatever the level. -/
def execSenseNop (_busSense : Bool) (s : State) : Host.Outcome State Fault Refusal :=
  .next s

end Sys2Proof.Machine
end

