-- ==== Sys2Proof/Machine/Operands.lean ====
section
/-! DEFINITION. The quantities the steps form from the buffer (R11, R66): the views `node` and `length`, the
9-bit frame size, the byte at `idx`, the reset-broadcast predicate, and the output ports of R23. -/

namespace Sys2Proof.Machine

/-- The view `node = buf[0]` (R11). -/
def State.node (s : State) : Byte := s.cell 0

/-- The view `length = buf[1]` (R11). -/
def State.length (s : State) : Byte := s.cell 1

/-- The frame's logical size after sync, `zext_9(length) + 2` (R66). -/
def State.frameSize (s : State) : Index := zext9 s.length + 2#9

/-- `buf[idx]`, the logical byte being sent (R127). -/
def State.current (s : State) : Byte := s.cell s.idx.toNat

/-- `idx` names a cell of the buffer (R22, R44). -/
def State.idxInBuf (s : State) : Bool := decide (s.idx.toNat < Config.bufCap)

/-- The cells `buf[0], .., buf[n-1]` in order. -/
def State.cells (s : State) (n : Nat) : List Byte := (List.range n).map s.cell

/-- The test of R119 after a store: the frame is complete. -/
def State.frameComplete (s : State) : Bool := decide (2 ≤ s.idx.toNat) && s.idx == s.frameSize

/-- `IsResetBroadcast()` (R124) with the two OPEN bytes as arguments (R6, D8). -/
def isResetBroadcast (p0 p1 : Byte) (s : State) : Bool :=
  s.node == Config.broadcast && s.length == 3#8 && s.cell 2 == p0 && s.cell 3 == p1

/-! ### Ports (R23, R24) -/

/-- The raw bytes the environment has yet to hand over on `ch_rx`. -/
def State.rxQueue (s : State) : Chan → List Byte
  | .host => s.hostRx
  | .bus => s.busRx

/-- `ch_rx_valid` (R23): the environment presents a raw byte this cycle. -/
def State.rxValid (s : State) : Chan → Bool
  | .host => s.levels.hostRxValid && !s.hostRx.isEmpty
  | .bus => s.levels.busRxValid && !s.busRx.isEmpty

/-- `ch_rx_ready` (R24): 1 exactly in the hunt and read states of `ch`; no byte is taken in a cycle with
`rst = 1` (R190; DEDUCED for the first such cycle, unsafe, log entry 11). -/
def State.rxReady (s : State) : Chan → Bool
  | .host => !s.levels.rst && (s.state == .awaitHostSync || s.state == .readHost)
  | .bus => !s.levels.rst && (s.state == .awaitBusSync || s.state == .readBus)

/-- `ch_tx_valid` (R24): 1 exactly in the sync and body transmit states of `ch`; no byte is offered in a cycle
with `rst = 1` (R190; log entry 11). -/
def State.txValid (s : State) : Chan → Bool
  | .host => !s.levels.rst && (s.state == .txHostSync || s.state == .txHostBody)
  | .bus => !s.levels.rst && (s.state == .txBusSync || s.state == .txBusBody)

/-- The raw byte the escaper sends for the logical byte `v` (R85). -/
def escaperByte (pending : Bool) (v : Byte) : Byte :=
  if pending then v - 1#8 else if isReserved v then Config.esc else v

/-- `ch_tx_data` (R23): the raw byte offered while `ch_tx_valid = 1`; nothing is said of it otherwise (I15). -/
def State.txData (s : State) (ch : Chan) : Option Byte :=
  if s.txValid ch then
    if s.state = .txBusSync ∨ s.state = .txHostSync then some Config.sync
    else some (escaperByte s.escTxPending s.current)
  else none

end Sys2Proof.Machine
end

