-- ==== Sys2Proof/Machine/Flags.lean ====
section
/-! DEFINITION. The two flags and the combinational outputs of the unescaper, the escaper and the checksum adder:
one shared operation for each row of the tables of R85 and R94 and for R107 to R109. There is no other flag
(R30 (d), R106). -/

namespace Sys2Proof.Machine

/-! ### The unescaper (R94) -/

/-- Row 1 of R94's table: `have <- 1`, `v <- r`, no flag written (R95). -/
def unescLiteral (r : Byte) (s : State) : State :=
  { s with out := { s.out with unescaped := some r } }

/-- Row 2 of R94's table: `have <- 0`, `esc_rx_pending <- 1` (R96). -/
def unescMark (s : State) : State :=
  { s with escRxPending := true, out := { s.out with unescaped := none } }

/-- Row 3 of R94's table: `have <- 1`, `v <- r +8 1`, `esc_rx_pending <- 0` (R97). -/
def unescArgument (r : Byte) (s : State) : State :=
  { s with escRxPending := false, out := { s.out with unescaped := some (r + 1#8) } }

/-- The unescaper's choice for a raw byte just taken (R94). -/
def unescapeBeat (r : Byte) (s : State) : State :=
  if s.escRxPending then unescArgument r s
  else if r = Config.esc then unescMark s
  else unescLiteral r s

/-! ### The escaper (R85) -/

/-- Row 1 of R85's table: send `v`, `advance <- 1` (R86). -/
def escPassBeat (ch : Chan) (v : Byte) (s : State) : Option State :=
  (send ch v s).map fun t => { t with out := { t.out with advance := true } }

/-- Row 2 of R85's table: send 0xD0, `esc_tx_pending <- 1`, `advance <- 0` (R87). -/
def escMarkBeat (ch : Chan) (s : State) : Option State :=
  (send ch Config.esc s).map fun t =>
    { t with escTxPending := true, out := { t.out with advance := false } }

/-- Row 3 of R85's table: send `v -8 1`, `esc_tx_pending <- 0`, `advance <- 1` (R88). -/
def escArgumentBeat (ch : Chan) (v : Byte) (s : State) : Option State :=
  (send ch (v - 1#8) s).map fun t =>
    { t with escTxPending := false, out := { t.out with advance := true } }

/-- The escaper's choice for the logical byte `v` (R85, R127); `none` while `Send` is blocked. -/
def escapeBeat (ch : Chan) (v : Byte) (s : State) : Option State :=
  if s.escTxPending then escArgumentBeat ch v s
  else if isReserved v then escMarkBeat ch s
  else escPassBeat ch v s

/-! ### The checksum adder (R107 to R109) -/

/-- `csum <- 0x00` (R107). -/
def csumClear (s : State) : State := { s with csum := 0#8 }

/-- `csum <- csum +8 din`, the carry dropped (R106, R108). -/
def csumAddByte (din : Byte) (s : State) : State := { s with csum := s.csum + din }

/-- `equal <- (csum = cmp)` on all 8 bits (R109). -/
def csumCompare (cmp : Byte) (s : State) : State :=
  { s with out := { s.out with equal := s.csum == cmp } }

/-- The checksum part of a validate step (R121, R133): clear, add `buf[0]` to `buf[L]` in order, compare with
`buf[L + 1]`. -/
def checkFrame (s : State) : State :=
  let summed := (List.range (s.length.toNat + 1)).foldl (fun t i => csumAddByte (s.cell i) t) (csumClear s)
  csumCompare (s.cell (s.length.toNat + 1)) summed

end Sys2Proof.Machine
end

