-- ==== Sys2Proof/Machine/Checksum.lean ====
section
/-! DEFINITION. The checksum_adder sub-block (spec/42_checksum_adder.md): the meanings of `CSUM.*`. -/

namespace Sys2Proof.Machine

/-- `CSUM.CLR` (R107). -/
def execCsumClr (s : State) : Host.Outcome State Fault Refusal :=
  .next (csumClear s)

/-- `CSUM.ADD` (R108). -/
def execCsumAdd (din : Byte) (s : State) : Host.Outcome State Fault Refusal :=
  .next (csumAddByte din s)

/-- `CSUM.CMP` (R109). -/
def execCsumCmp (cmp : Byte) (s : State) : Host.Outcome State Fault Refusal :=
  .next (csumCompare cmp s)

/-- `CSUM.RANGE` (R105): the result is `Checksum` of the sequence; the register `csum` is not written. -/
def execCsumRange (bytes : List Byte) (s : State) : Host.Outcome State Fault Refusal :=
  .next { s with out := { s.out with rangeSum := checksum bytes } }

end Sys2Proof.Machine
end

