-- ==== Sys2Proof/Machine/Diagnostics.lean ====
section
/-! DEFINITION. The diagnostic reports (spec/60_exceptions.md): the meanings of `DIAG.*`, each the primitive
`Report(code)` for its code (R165, R166). -/

namespace Sys2Proof.Machine

/-- `DIAG.STARTUP`, code 1 (R166, R170). -/
def execDiagStartup (s : State) : Host.Outcome State Fault Refusal :=
  .next (report .startup s)

/-- `DIAG.HOST_CSUM`, code 2 (R166, R167). -/
def execDiagHostCsum (s : State) : Host.Outcome State Fault Refusal :=
  .next (report .hostCsum s)

/-- `DIAG.RESET_ABSORBED`, code 3 (R166, R168). -/
def execDiagResetAbsorbed (s : State) : Host.Outcome State Fault Refusal :=
  .next (report .resetAbsorbed s)

/-- `DIAG.BUS_CSUM`, code 4 (R166, R169). -/
def execDiagBusCsum (s : State) : Host.Outcome State Fault Refusal :=
  .next (report .busCsum s)

end Sys2Proof.Machine
end

