-- ==== Sys2Proof/Machine/Escaper.lean ====
section
/-! DEFINITION. The byte_escaper sub-block (spec/40_byte_escaper.md): the meanings of `ESC.*`. An operation whose
`Send` is blocked changes nothing (R7). -/

namespace Sys2Proof.Machine

/-- `ESC.PASS` (R86). -/
def execEscPass (ch : Chan) (v : Byte) (s : State) : Host.Outcome State Fault Refusal :=
  .next (orBlocked s (escPassBeat ch v s))

/-- `ESC.PFX` for the logical byte 0xD0 (R87). -/
def execEscPfxD0 (ch : Chan) (s : State) : Host.Outcome State Fault Refusal :=
  .next (orBlocked s (escMarkBeat ch s))

/-- `ESC.PFX` for the logical byte 0xE0 (R87). -/
def execEscPfxE0 (ch : Chan) (s : State) : Host.Outcome State Fault Refusal :=
  .next (orBlocked s (escMarkBeat ch s))

/-- `ESC.ARG` (R88). -/
def execEscArg (ch : Chan) (v : Byte) (s : State) : Host.Outcome State Fault Refusal :=
  .next (orBlocked s (escArgumentBeat ch v s))

/-- `ESC.BATCH` (R89): the result is the sequence `Escape` gives; no register and no flag is written. -/
def execEscBatch (logical : List Byte) (s : State) : Host.Outcome State Fault Refusal :=
  .next { s with out := { s.out with batch := escape logical } }

end Sys2Proof.Machine
end

