-- ==== Sys2Proof/Machine/Relay.lean ====
section
/-! DEFINITION. The frame_relay_fsm sub-block (spec/43_frame_relay_fsm.md): the shared procedures of R119 and R127
and the meanings of `HUNT.*` and `ST.*`. A step whose primitive is blocked changes nothing (R7). -/

namespace Sys2Proof.Machine

/-! ### Shared procedures -/

/-- Where a hunt on `ch` goes when the sync byte is found (R117, R131). -/
def readState : Chan → FsmState
  | .host => .readHost
  | .bus => .readBus

/-- Where a hunt on `ch` stays while it is not (R117, R131). -/
def huntState : Chan → FsmState
  | .host => .awaitHostSync
  | .bus => .awaitBusSync

/-- The sync byte is found: `idx <- 0`, and the frame is read next. -/
def huntFound (ch : Chan) (s : State) : State := { s with idx := 0#9, state := readState ch }

/-- Any other byte is discarded. -/
def huntSkipped (ch : Chan) (s : State) : State := { s with state := huntState ch }

/-- The step of a hunt state (R117, R131). -/
def huntStep (ch : Chan) (s : State) : State :=
  match recv ch s with
  | none => s
  | some (r, t) => if r = Config.sync then huntFound ch t else huntSkipped ch t

/-- The store of `StoreLogical` (R119): `buf[idx] <- v`, `idx <- idx + 1`. -/
def storeByte (v : Byte) (s : State) : State := { s.setCell s.idx.toNat v with idx := s.idx + 1#9 }

/-- `StoreLogical(v, next)` (R119): the store, and the state left when it completes the frame. -/
def storeLogical (v : Byte) (next : FsmState) (s : State) : State :=
  if (storeByte v s).frameComplete then { storeByte v s with state := next } else storeByte v s

/-- The step of a read state (R118, R132): take a raw byte, unescape it, store the logical byte if there is one.
A store outside `buf[0..256]` faults. -/
def readStep (ch : Chan) (next : FsmState) (s : State) : Host.Outcome State Fault Refusal :=
  match recv ch s with
  | none => .next s
  | some (r, t) =>
    let u := unescapeBeat r t
    match u.out.unescaped with
    | none => .next u
    | some v => if u.idxInBuf then .next (storeLogical v next u) else .fault (.noSuchCell u.idx.toNat)

/-- The end of `SendLogical` (R127): when the logical byte is finished, `idx` moves on, and the state is left
after the last one. -/
def afterBeat (next : FsmState) (s : State) : State :=
  if s.out.advance then
    let t := { s with idx := s.idx + 1#9 }
    if t.idx = t.frameSize then { t with state := next } else t
  else s

/-- `SendLogical(ch, next)` (R127). A load outside `buf[0..256]` faults. -/
def sendLogical (ch : Chan) (next : FsmState) (s : State) : Host.Outcome State Fault Refusal :=
  if s.idxInBuf then .next (orBlocked s ((escapeBeat ch s.current s).map (afterBeat next)))
  else .fault (.noSuchCell s.idx.toNat)

/-- The step that sends the sync byte raw (R92, R128, R135). -/
def sendSync (ch : Chan) (next : FsmState) (s : State) : State :=
  orBlocked s ((send ch Config.sync s).map fun t => { t with state := next })

/-- The forward branch of host validation (R123): `DIR.ACQ`, `STAT.ON`, `idx <- 0`. -/
def forwardHost (s : State) : State :=
  { setStatus true (setBusDir true s) with idx := 0#9, state := .txBusSync }

/-- The decision of host validation (R121, R175) for given values of the two OPEN bytes. -/
def validateHostWith (p0 p1 : Byte) (s : State) : State :=
  let t := checkFrame s
  if t.out.equal then
    if isResetBroadcast p0 p1 t then startReport .resetAbsorbed t else forwardHost t
  else startReport .hostCsum t

/-- The decision of bus validation (R133). -/
def validateBus (s : State) : State :=
  let t := checkFrame s
  if t.out.equal then { t with idx := 0#9, state := .txHostSync } else startReport .busCsum t

/-! ### The sync hunt -/

/-- `HUNT.SYNC` (R117, R131): the raw 0xE0 just taken from `ch` starts a frame; it is not stored. -/
def execHuntSync (ch : Chan) (s : State) : Host.Outcome State Fault Refusal :=
  .next (huntFound ch s)

/-- `HUNT.SKIP` (R117, R131): the raw byte just taken from `ch` is discarded; no flag changes. -/
def execHuntSkip (ch : Chan) (_r : Byte) (s : State) : Host.Outcome State Fault Refusal :=
  .next (huntSkipped ch s)

/-! ### The steps of the 16 states -/

/-- `ST.STARTUP` (R116). -/
def execStStartup (s : State) : Host.Outcome State Fault Refusal :=
  .next (deliverReport .startup s)

/-- `ST.AWAIT_HOST_SYNC` (R117). -/
def execStAwaitHostSync (s : State) : Host.Outcome State Fault Refusal :=
  .next (huntStep .host s)

/-- `ST.READ_HOST` (R118). -/
def execStReadHost (s : State) : Host.Outcome State Fault Refusal :=
  readStep .host .validateHost s

/-- `ST.VALIDATE_HOST` (R121 to R124). -/
def execStValidateHost (s : State) : Host.Outcome State Fault Refusal :=
  .next (validateHostWith Config.resetP0 Config.resetP1 s)

/-- `ST.DISCARD` (R125). -/
def execStDiscard (s : State) : Host.Outcome State Fault Refusal :=
  .next (deliverReport .hostCsum s)

/-- `ST.ABSORB` (R126). -/
def execStAbsorb (s : State) : Host.Outcome State Fault Refusal :=
  .next (deliverReport .resetAbsorbed s)

/-- `ST.TX_BUS_SYNC` (R128). -/
def execStTxBusSync (s : State) : Host.Outcome State Fault Refusal :=
  .next (sendSync .bus .txBusBody s)

/-- `ST.TX_BUS_BODY` (R129). -/
def execStTxBusBody (s : State) : Host.Outcome State Fault Refusal :=
  sendLogical .bus .txBusFlush s

/-- `ST.TX_BUS_FLUSH` (R130): the release is in the step in which the flush completes. -/
def execStTxBusFlush (s : State) : Host.Outcome State Fault Refusal :=
  .next (orBlocked s ((flush .bus s).map fun t => { setBusDir false t with state := .awaitBusSync }))

/-- `ST.AWAIT_BUS_SYNC` (R131). -/
def execStAwaitBusSync (s : State) : Host.Outcome State Fault Refusal :=
  .next (huntStep .bus s)

/-- `ST.READ_BUS` (R132). -/
def execStReadBus (s : State) : Host.Outcome State Fault Refusal :=
  readStep .bus .validateBus s

/-- `ST.VALIDATE_BUS` (R133). -/
def execStValidateBus (s : State) : Host.Outcome State Fault Refusal :=
  .next (validateBus s)

/-- `ST.REPORT_BUS_CSUM` (R134). -/
def execStReportBusCsum (s : State) : Host.Outcome State Fault Refusal :=
  .next (deliverReport .busCsum s)

/-- `ST.TX_HOST_SYNC` (R135). -/
def execStTxHostSync (s : State) : Host.Outcome State Fault Refusal :=
  .next (sendSync .host .txHostBody s)

/-- `ST.TX_HOST_BODY` (R136). -/
def execStTxHostBody (s : State) : Host.Outcome State Fault Refusal :=
  sendLogical .host .txHostFlush s

/-- `ST.TX_HOST_FLUSH` (R137): the indicator falls in the step in which the flush completes. -/
def execStTxHostFlush (s : State) : Host.Outcome State Fault Refusal :=
  .next (orBlocked s ((flush .host s).map fun t => { setStatus false t with state := .awaitHostSync }))

end Sys2Proof.Machine
end

