-- ==== Sys2Proof/Machine/Unescaper.lean ====
section
/-! DEFINITION. The byte_unescaper sub-block (spec/41_byte_unescaper.md): the meanings of `UNESC.*`. The raw byte
has been taken by the step that runs the operation; what becomes of the logical byte is that step's (R119). -/

namespace Sys2Proof.Machine

/-- `UNESC.LIT` (R95). -/
def execUnescLit (r : Byte) (s : State) : Host.Outcome State Fault Refusal :=
  .next (unescLiteral r s)

/-- `UNESC.PFX` (R96). -/
def execUnescPfx (s : State) : Host.Outcome State Fault Refusal :=
  .next (unescMark s)

/-- `UNESC.ARG` (R97). -/
def execUnescArg (c : Byte) (s : State) : Host.Outcome State Fault Refusal :=
  .next (unescArgument c s)

/-- `UNESC.BATCH` (R99): the results are the logical bytes and the final flag `Unescape` gives; no register and
no flag of the block is written. -/
def execUnescBatch (raw : List Byte) (s : State) : Host.Outcome State Fault Refusal :=
  .next { s with out := { s.out with batch := (unescape raw).1, batchPending := (unescape raw).2 } }

end Sys2Proof.Machine
end

