-- ==== Sys2Proof/Machine/Dispatch.lean ====
section
/-! DEFINITION. The dispatch of every operation to its meaning, one arm for each constructor of `Instr`.
An operation has its effect whatever the state register holds (DESIGN CHOICE, log entry 9; unsafe). -/

namespace Sys2Proof.Machine

def exec (i : Instr) (s : State) : Host.Outcome State Fault Refusal :=
  match i with
  | .huntSync ch => Sys2Proof.Machine.execHuntSync ch s
  | .huntSkip ch r => Sys2Proof.Machine.execHuntSkip ch r s
  | .unescPfx => Sys2Proof.Machine.execUnescPfx s
  | .unescLit r => Sys2Proof.Machine.execUnescLit r s
  | .unescArg c => Sys2Proof.Machine.execUnescArg c s
  | .unescBatch raw => Sys2Proof.Machine.execUnescBatch raw s
  | .escPfxD0 ch => Sys2Proof.Machine.execEscPfxD0 ch s
  | .escPfxE0 ch => Sys2Proof.Machine.execEscPfxE0 ch s
  | .escPass ch v => Sys2Proof.Machine.execEscPass ch v s
  | .escArg ch v => Sys2Proof.Machine.execEscArg ch v s
  | .escBatch logical => Sys2Proof.Machine.execEscBatch logical s
  | .csumClr => Sys2Proof.Machine.execCsumClr s
  | .csumAdd din => Sys2Proof.Machine.execCsumAdd din s
  | .csumCmp cmp => Sys2Proof.Machine.execCsumCmp cmp s
  | .csumRange bytes => Sys2Proof.Machine.execCsumRange bytes s
  | .stStartup => Sys2Proof.Machine.execStStartup s
  | .stAwaitHostSync => Sys2Proof.Machine.execStAwaitHostSync s
  | .stReadHost => Sys2Proof.Machine.execStReadHost s
  | .stValidateHost => Sys2Proof.Machine.execStValidateHost s
  | .stDiscard => Sys2Proof.Machine.execStDiscard s
  | .stAbsorb => Sys2Proof.Machine.execStAbsorb s
  | .stTxBusSync => Sys2Proof.Machine.execStTxBusSync s
  | .stTxBusBody => Sys2Proof.Machine.execStTxBusBody s
  | .stTxBusFlush => Sys2Proof.Machine.execStTxBusFlush s
  | .stAwaitBusSync => Sys2Proof.Machine.execStAwaitBusSync s
  | .stReadBus => Sys2Proof.Machine.execStReadBus s
  | .stValidateBus => Sys2Proof.Machine.execStValidateBus s
  | .stReportBusCsum => Sys2Proof.Machine.execStReportBusCsum s
  | .stTxHostSync => Sys2Proof.Machine.execStTxHostSync s
  | .stTxHostBody => Sys2Proof.Machine.execStTxHostBody s
  | .stTxHostFlush => Sys2Proof.Machine.execStTxHostFlush s
  | .dirAcq => Sys2Proof.Machine.execDirAcq s
  | .dirRel => Sys2Proof.Machine.execDirRel s
  | .statOn => Sys2Proof.Machine.execStatOn s
  | .statOff => Sys2Proof.Machine.execStatOff s
  | .senseNop busSense => Sys2Proof.Machine.execSenseNop busSense s
  | .diagStartup => Sys2Proof.Machine.execDiagStartup s
  | .diagHostCsum => Sys2Proof.Machine.execDiagHostCsum s
  | .diagResetAbsorbed => Sys2Proof.Machine.execDiagResetAbsorbed s
  | .diagBusCsum => Sys2Proof.Machine.execDiagBusCsum s

end Sys2Proof.Machine
end

