-- ==== Sys2Proof/Machine/Fetch.lean ====
section
/-! DEFINITION. Fetching and the clock cycle: the state register is the block's program counter and holds the code
of the operation to run (R5, R12), a cycle uses up one sample of the input levels, and the events of a step
join the trace together (R8). -/

namespace Sys2Proof.Machine

/-- The word fetched: the state code, in the low half of a byte (R72). -/
def fetchWord (s : State) : List Byte := [s.state.code.setWidth 8]

/-- The operation the fetched word selects. -/
def fetchInstr (s : State) : Instr := decodeFsm s.state.code

/-- The trace of the present run with the events of the present step, if any, as its last element (R8). -/
def State.joined (s : State) : List (List Event) := if s.now = [] then s.trace else s.trace ++ [s.now]

/-- The end of a clock cycle: the next sample of the input levels, and the step's events, if any, become the next
element of the trace (R8). -/
def endCycle (s : State) : State :=
  { s with
    schedule := s.schedule.tail
    cycle := s.cycle + 1
    now := []
    trace := s.joined
    resetHeld := false }

/-- The end of a reset cycle: the run so far ends, with the events the reset implies as its last, and another starts with
an empty trace (R192). A further cycle of a reset that is held ends no run of its own (DEDUCED, unsafe, log entry
7). -/
def endReset (s : State) : State :=
  { s with
    schedule := s.schedule.tail
    cycle := s.cycle + 1
    now := []
    trace := []
    runs := if s.resetHeld = true ∧ s.joined = [] then s.runs else s.runs ++ [s.joined]
    resetHeld := true }

/-- A meaning's outcome, with the end of the cycle after a next state. -/
def finishCycle : Host.Outcome State Fault Refusal → Host.Outcome State Fault Refusal
  | .next s => .next (endCycle s)
  | .fault r => .fault r
  | .refused r => .refused r

/-- Input levels that complete every handshake, with reset released. -/
def grantAll : Levels :=
  { rst := false, hostRxValid := true, hostTxReady := true, hostTxIdle := true, busRxValid := true,
    busTxReady := true, busTxIdle := true, busSense := false, diagDone := true }

/-- `s` with one table word placed where the next step selects its operation: a state code in the state
register, a raw byte at the head of the host stream with the block in the hunt or the body context (log entry
4). The cycle's input levels complete every handshake, so that the operation fires. -/
def placeWord (s : State) (nbits w : Nat) : State :=
  if 0 < nbits ∧ nbits ≤ 8 ∧ w < 256 then
    let b := BitVec.ofNat 8 w
    match tableCtx b with
    | .fsm => { s with state := FsmState.ofCode (b.setWidth 4), schedule := grantAll :: s.schedule }
    | .body =>
      { s with state := .readHost, escRxPending := false, hostRx := b :: s.hostRx,
               schedule := grantAll :: s.schedule }
    | _ =>
      { s with state := .awaitHostSync, hostRx := b :: s.hostRx, schedule := grantAll :: s.schedule }
  else s

end Sys2Proof.Machine
end

