-- ==== Sys2Proof/Machine/Step.lean ====
section
/-! DEFINITION. One step of the machine: one clock cycle (R7, D16). -/

namespace Sys2Proof.Machine

/-- One clock cycle (DEDUCED, safe, log entry 10): reset wins over everything (R176, R190) and ends the present run
(R192); otherwise the operation that the state register selects runs, and fires or is blocked. -/
def step (s : State) : Host.Outcome State Fault Refusal :=
  if s.levels.rst then .next (endReset (resetBlock s)) else finishCycle (exec (fetchInstr s) s)

/-- `s` with a table word placed where `step` selects its next operation. -/
def State.withFetchWord (s : State) (nbits w : Nat) : State := placeWord s nbits w

end Sys2Proof.Machine
end

