-- ==== Sys2Proof/Safety.lean ====
section
/-! DEFINITION. What the claims about the block are stated in: the windows of the outputs (R152, R155, R19), the
invariant of the reachable states (R13, R30, R45), reachable states, and readings of the event trace. -/

namespace Sys2Proof.Machine

/-! ### Windows -/

/-- The direction window (R152): the states in which `bus_dir = 1`. -/
def inBusWindow : FsmState → Bool
  | .txBusSync | .txBusBody | .txBusFlush => true
  | .startup | .awaitHostSync | .readHost | .validateHost | .discard | .absorb | .awaitBusSync | .readBus
  | .validateBus | .reportBusCsum | .txHostSync | .txHostBody | .txHostFlush => false

/-- The status window (R155): the states in which `status = 1`. -/
def inStatusWindow : FsmState → Bool
  | .txBusSync | .txBusBody | .txBusFlush | .awaitBusSync | .readBus | .validateBus | .reportBusCsum
  | .txHostSync | .txHostBody | .txHostFlush => true
  | .startup | .awaitHostSync | .readHost | .validateHost | .discard | .absorb => false

/-- The report in progress in a reporting state (R19, R166). -/
def reportOf : FsmState → Option Diag
  | .startup => some .startup
  | .discard => some .hostCsum
  | .absorb => some .resetAbsorbed
  | .reportBusCsum => some .busCsum
  | .awaitHostSync | .readHost | .validateHost | .txBusSync | .txBusBody | .txBusFlush | .awaitBusSync
  | .readBus | .validateBus | .txHostSync | .txHostBody | .txHostFlush => none

/-- The read states (R118, R132). -/
def isReading (st : FsmState) : Bool := st == .readHost || st == .readBus

/-- The body-transmit states (R129, R136). -/
def isSendingBody (st : FsmState) : Bool := st == .txBusBody || st == .txHostBody

/-- The sync-transmit states (R128, R135). -/
def isSendingSync (st : FsmState) : Bool := st == .txBusSync || st == .txHostSync

/-- The states in which `buf` holds a complete frame and `idx` its size: validation and the reports it starts
(R120, R177), and the ends of the two transmissions (R127). -/
def isAtFrameEnd : FsmState → Bool
  | .validateHost | .discard | .absorb | .txBusFlush | .validateBus | .reportBusCsum | .txHostFlush => true
  | .startup | .awaitHostSync | .readHost | .txBusSync | .txBusBody | .awaitBusSync | .readBus | .txHostSync
  | .txHostBody => false

/-- The states in which `buf` holds a complete frame. -/
def holdsFrame (st : FsmState) : Bool := isAtFrameEnd st || isSendingBody st || isSendingSync st

/-! ### The invariant of the reachable states -/

/-- What holds between any two steps of a run (R13, R19, R30, R45, R88, R152, R155, R177). -/
structure Inv (s : State) : Prop where
  /-- the events of every step have joined the trace. -/
  no_leftover : s.now = []
  /-- the buffer's canonical form, every address in `buf[0..256]` (R44). -/
  buf_wf : Memory.wf s.buf = true
  /-- R30 (a). -/
  esc_rx : s.escRxPending = true → isReading s.state = true
  /-- R30 (b). -/
  esc_tx : s.escTxPending = true → isSendingBody s.state = true
  /-- R88: between the two beats the byte sent is a reserved value. -/
  esc_tx_byte : s.escTxPending = true → isReserved s.current = true
  /-- R152. -/
  bus_dir : s.busDir = inBusWindow s.state
  /-- R155. -/
  status_window : s.status = inStatusWindow s.state
  /-- R19: `diag_req = 1` exactly in the reporting states. -/
  diag_req : s.diagReq = (reportOf s.state).isSome
  /-- R19: with the code of the report in progress. -/
  diag_code : ∀ d, reportOf s.state = some d → s.diagCode = d.code
  /-- R19: no code but 1 to 4 is ever driven. -/
  diag_range : 1 ≤ s.diagCode.toNat ∧ s.diagCode.toNat ≤ 4
  /-- R13, R44: `idx` counts to 257 at most. -/
  idx_le : s.idx.toNat ≤ Config.bufCap
  /-- R29, R177: the startup report begins with `idx = 0`. -/
  startup_idx : s.state = .startup → s.idx.toNat = 0
  /-- R190, R192: while a reset is held the block stays in `STARTUP`, and the run it starts has no event yet. -/
  reset_held : s.resetHeld = true → s.state = .startup ∧ s.trace = []
  /-- R119: what has been stored so far of the frame being read. -/
  reading_written : isReading s.state = true → ∀ a, a < s.idx.toNat → s.written a = true
  /-- R120: a frame being read is not complete. -/
  reading_open : isReading s.state = true →
    s.idx.toNat < 2 ∨ s.idx.toNat < s.length.toNat + 2
  /-- R45: every cell of a complete frame has been written. -/
  frame_written : holdsFrame s.state = true → ∀ a, a < s.length.toNat + 2 → s.written a = true
  /-- R120, R127, R177: `idx = L + 2` at the end of a frame. -/
  frame_end : isAtFrameEnd s.state = true → s.idx.toNat = s.length.toNat + 2
  /-- R123, R133, R134: a transmission starts at `idx = 0`. -/
  sync_idx : isSendingSync s.state = true → s.idx.toNat = 0
  /-- R127: `idx` is inside the frame being sent. -/
  body_idx : isSendingBody s.state = true → s.idx.toNat < s.length.toNat + 2

/-! ### Runs -/

/-- The machine after reset with a stimulus (R77): the raw bytes of the two receive streams and the input levels
of the cycles to come. -/
def stimulated (host bus : List Byte) (levels : List Levels) : State :=
  { State.reset with hostRx := host, busRx := bus, schedule := levels }

/-- A state some run reaches: some number of cycles after reset, under some stimulus. -/
def Reachable (s : State) : Prop :=
  ∃ host bus levels n, Sys2Proof.core.run n (stimulated host bus levels) = .next s

/-- A safe state: its step answers a next state (no fault, no refusal). -/
def StepSafe (s : State) : Prop := ∃ t, step s = .next t

/-- The operations of a list run one after the other, stopping at the first that gives no next state. -/
def execAll : List Instr → State → Host.Outcome State Fault Refusal
  | [], s => .next s
  | i :: is, s =>
    match exec i s with
    | .next t => execAll is t
    | .fault r => .fault r
    | .refused r => .refused r

/-- The state after a raw byte `r` has been taken on `ch_rx` and `q` is left there (R24, R47). -/
def takenFrom (ch : Chan) (r : Byte) (q : List Byte) (s : State) : State :=
  match ch with
  | .host => { s with hostRx := q, now := s.now ++ [.hrx r] }
  | .bus => { s with busRx := q, now := s.now ++ [.brx r] }

/-! ### The two halves of the relay, by channel -/

/-- The step of the hunt on `ch` (R117, R131). -/
def awaitInstr : Chan → Instr
  | .host => .stAwaitHostSync
  | .bus => .stAwaitBusSync

/-- The step that reads a frame from `ch` (R118, R132). -/
def readInstr : Chan → Instr
  | .host => .stReadHost
  | .bus => .stReadBus

/-- Where a frame read from `ch` is checked (R121, R133). -/
def validateState : Chan → FsmState
  | .host => .validateHost
  | .bus => .validateBus

/-- The step that sends the sync byte on `ch` (R128, R135). -/
def syncInstr : Chan → Instr
  | .host => .stTxHostSync
  | .bus => .stTxBusSync

/-- The state in which the frame's bytes are sent on `ch` (R129, R136). -/
def bodyState : Chan → FsmState
  | .host => .txHostBody
  | .bus => .txBusBody

/-- The step that sends the frame's bytes on `ch` (R129, R136). -/
def bodyInstr : Chan → Instr
  | .host => .stTxHostBody
  | .bus => .stTxBusBody

/-- The state in which the block waits for `ch` to be flushed (R130, R137). -/
def flushState : Chan → FsmState
  | .host => .txHostFlush
  | .bus => .txBusFlush

/-- Input levels that complete every handshake the block may wait for, with `rst` low. -/
def isGranting (l : Levels) : Bool :=
  !l.rst && l.hostRxValid && l.hostTxReady && l.hostTxIdle && l.busRxValid && l.busTxReady && l.busTxIdle &&
    l.diagDone

/-- The environment grants every handshake of the next `n` cycles (the convention of R77). -/
def grantsFor (n : Nat) (s : State) : Prop :=
  n ≤ s.schedule.length ∧ ∀ l ∈ s.schedule.take n, isGranting l = true

/-- The frame is the reset-broadcast (R124). -/
def isResetFrame (f : Frame) : Prop :=
  f.node = Config.broadcast ∧ f.length = 3#8 ∧ f.payload = [Config.resetP0, Config.resetP1]

/-! ### Readings of the trace -/

/-- Every event so far, oldest first: those of the runs that a reset has ended, then those of the present run (R8,
R192). -/
def State.history (s : State) : List Event := s.runs.flatten.flatten ++ s.trace.flatten

/-- The raw bytes taken on `ch_rx`, oldest first. -/
def bytesTaken (ch : Chan) (es : List Event) : List Byte :=
  es.filterMap fun e =>
    match ch, e with
    | .host, .hrx b => some b
    | .bus, .brx b => some b
    | _, _ => none

/-- The raw bytes handed over on `ch_tx`, oldest first. -/
def bytesSent (ch : Chan) (es : List Event) : List Byte :=
  es.filterMap fun e =>
    match ch, e with
    | .host, .htx b => some b
    | .bus, .btx b => some b
    | _, _ => none

/-- Read a trace from the level `d` of `bus_dir`: the level it ends at, or `none` if a bus byte is sent or the bus
flushed outside the direction window, or a bus byte taken inside it (R152). -/
def followDir (d : Bool) : List Event → Option Bool
  | [] => some d
  | .dir v :: es => followDir v es
  | .btx _ :: es => if d then followDir d es else none
  | .bflush :: es => if d then followDir d es else none
  | .brx _ :: es => if d then none else followDir d es
  | .hrx _ :: es => followDir d es
  | .htx _ :: es => followDir d es
  | .hflush :: es => followDir d es
  | .diag _ :: es => followDir d es
  | .status _ :: es => followDir d es

/-- One element of the trace for each raw byte taken on `ch_rx`. -/
def takenTrace (ch : Chan) (raw : List Byte) : List (List Event) :=
  raw.map fun b => match ch with | .host => [.hrx b] | .bus => [.brx b]

/-- One element of the trace for each raw byte handed over on `ch_tx`. -/
def sentTrace (ch : Chan) (raw : List Byte) : List (List Event) :=
  raw.map fun b => [txEvent ch b]

/-- The stepped form of the unescaper (R99): run the operation of each raw byte in turn (R65) and gather the
logical bytes; the state holds the final flag. -/
def unescapeStepped : List Byte → State → List Byte × State
  | [], s => ([], s)
  | r :: raw, s =>
    match exec (decodeBody s.escRxPending r) s with
    | .next t =>
      ((t.out.unescaped.toList) ++ (unescapeStepped raw t).1, (unescapeStepped raw t).2)
    | _ => ([], s)

/-- A state with `bus_sense` low in every laid-down cycle (R27). -/
def blindToSense (s : State) : State :=
  { s with schedule := s.schedule.map fun l => { l with busSense := false } }

end Sys2Proof.Machine
end

