-- ==== Sys2Proof/Certificates/Slice0/Obligations.lean ====
section
/-! DEFINITION. The statements for the provers. Each docstring names the rule or the section of spec/ it rests on;
where a clause rests on a choice of the model it names the log entry. A statement about `exec` of a sub-block's
operation holds in every state, whatever the state register holds: that is the model's choice (log entry 9); the
block runs the operation where `StepRunsDecodedOperation` and `StepsRunTheByteClass` say. -/

open Sys2Proof Sys2Proof.Machine

/-! ### Encodings -/

/-- Decoding the encoding of a well-formed operation, in the operation's context, gives the operation back
(30_encoding.md sections 2 and 5). -/
def Obligations.DecodeOfEncode : Prop :=
  ∀ i : Instr, i.wf = true → decode i.ctx (encode i) = .ok i []

/-- What the decoder accepts is the encoding of what it answers, followed by what it leaves: every word of a context
has one meaning (30_encoding.md sections 2 and 5). -/
def Obligations.EncodeOfDecode : Prop :=
  ∀ (c : Ctx) (w : List Byte) (i : Instr) (rest : List Byte),
    decode c w = .ok i rest → i.ctx = c ∧ encode i ++ rest = w

/-- A frame is read back from its wire encoding, whatever bytes other than the sync byte stand before it and
whatever bytes follow (30_encoding.md sections 1 and 2): the frame's end is found by `length` alone, and its
checksum may be wrong. -/
def Obligations.FrameDecodeOfWire : Prop :=
  ∀ (f : Frame) (noise rest : List Byte), f.counted = true → Config.sync ∉ noise →
    decodeFrame (noise ++ f.wire ++ rest) = some (f, rest)

/-- Some words written out from the tables of R63, R65, R72 and R166 decode to what they stand for. -/
def Obligations.TableWordsDecode : Prop :=
  decode (.hunt .host) [0xE0#8] = .ok (.huntSync .host) [] ∧
  decode (.hunt .bus) [0xD0#8] = .ok (.huntSkip .bus 0xD0#8) [] ∧
  decode .body [0xD0#8] = .ok .unescPfx [] ∧
  decode .body [0xE0#8] = .ok (.unescLit 0xE0#8) [] ∧
  decode .arg [0xE0#8] = .ok (.unescArg 0xE0#8) [] ∧
  decode (.tx .bus) [0xE0#8] = .ok (.escPfxE0 .bus) [] ∧
  decode (.tx .host) [0xCF#8] = .ok (.escPass .host 0xCF#8) [] ∧
  decode (.txArg .bus) [0xD0#8] = .ok (.escArg .bus 0xD0#8) [] ∧
  decode .fsm [0x0C#8] = .ok .stReportBusCsum [] ∧
  decode .diag [0x04#8] = .ok .diagBusCsum [] ∧
  decode .diag [0x05#8] = .reject .reservedDiagCode ∧
  decode .noByte [0xE0#8] = .reject .noByteTaken

/-- R91: the round trip, the fixed points, and that the converse fails. -/
def Obligations.EscapeRoundTrip : Prop :=
  (∀ b : List Byte, unescape (escape b) = (b, false)) ∧
  (∀ b : Byte, b ≠ 0xE0#8 → b ≠ 0xD0#8 → escape [b] = [b]) ∧
  ¬ ∀ raw : List Byte, escape (unescape raw).1 = raw

/-- What an escaped sequence can contain, and that the sync byte occurs in a wire encoding once, at its
start (40_byte_escaper.md section 3). -/
def Obligations.EscapedSequenceContents : Prop :=
  ∀ a : List Byte,
    (0xE0#8 : Byte) ∉ escape a ∧
    (∀ pre post, escape a = pre ++ 0xD0#8 :: post →
      ∃ c post', post = c :: post' ∧ (c = 0xCF#8 ∨ c = 0xDF#8)) ∧
    a.length ≤ (escape a).length ∧ (escape a).length ≤ 2 * a.length ∧
    (escape a).length = a.length + a.countP (fun v => v == 0xD0#8 || v == 0xE0#8) ∧
    ∀ f : Frame, f.wire.head? = some 0xE0#8 ∧ f.wire.count 0xE0#8 = 1

/-- `Escape` is per byte, and `Unescape` of a concatenation is that of its parts when the first part ends with no
prefix outstanding; otherwise the next raw byte is taken as an argument (sections 2 of 40_byte_escaper.md and
41_byte_unescaper.md). -/
def Obligations.EscapeAndUnescapeAppend : Prop :=
  (∀ a b : List Byte, escape (a ++ b) = escape a ++ escape b) ∧
  (∀ s t : List Byte, (unescape s).2 = false →
    unescape (s ++ t) = ((unescape s).1 ++ (unescape t).1, (unescape t).2)) ∧
  (∀ (s t : List Byte) (c : Byte), (unescape s).2 = true →
    unescape (s ++ c :: t) = ((unescape s).1 ++ (c + 1#8) :: (unescape t).1, (unescape t).2))

/-- Section 4 of 42_checksum_adder.md: additivity, order, one byte, a whole frame, and that every change of one
logical byte that leaves `length` as it was is detected. -/
def Obligations.ChecksumLaws : Prop :=
  (∀ a b : List Byte, checksum (a ++ b) = checksum a + checksum b) ∧
  (∀ a b : List Byte, a.Perm b → checksum a = checksum b) ∧
  (∀ x : Byte, checksum [x] = x) ∧
  (∀ f : Frame, f.wf = true → checksum f.logical = 2#8 * f.check) ∧
  (∀ (f g : Frame) (i : Nat) (b : Byte), f.wf = true → g.length = f.length →
    g.logical = f.logical.set i b → g ≠ f → g.wf = false)

/-! ### Reset, fetch and the clock cycle -/

/-- The values after reset (10_state.md section 10, the spec's own decisions). The buffer is unspecified: every cell
holds its free value (log entry 2). -/
def Obligations.ResetValues : Prop :=
  State.reset.state = .startup ∧ State.reset.idx = 0#9 ∧ State.reset.csum = 0#8 ∧
  State.reset.escRxPending = false ∧ State.reset.escTxPending = false ∧
  State.reset.busDir = false ∧ State.reset.status = false ∧
  State.reset.diagReq = true ∧ State.reset.diagCode = 1#4 ∧
  (∀ a, State.reset.cell a = Config.powerUpByte a) ∧
  ∀ ch, State.reset.rxReady ch = false ∧ State.reset.txValid ch = false

/-- 70_reset_and_hazards.md section 1: a cycle with `rst = 1` gives every register its reset value whatever the state
was, leaves `buf` and the streams alone, takes and offers no byte (log entry 11). In the trace the present run ends,
with the events the forced outputs imply, and another starts; a further cycle of a held reset ends no run (log entry
7; log entry 6 on the order of the events). With `rst = 0` the step is the operation of the state. -/
def Obligations.ResetCycle : Prop :=
  ∀ s : State,
    (s.levels.rst = true →
      let ended :=
        if s.now = [] ∧ s.busDir = false ∧ s.status = false then s.trace
        else s.trace ++ [s.now ++ (if s.busDir then [.dir false] else []) ++
          (if s.status then [.status false] else [])]
      (∀ ch, s.rxReady ch = false ∧ s.txValid ch = false) ∧
      step s = .next
        { s with
          state := .startup, idx := 0#9, csum := 0#8, escRxPending := false, escTxPending := false,
          busDir := false, status := false, diagReq := true, diagCode := 1#4,
          schedule := s.schedule.tail, cycle := s.cycle + 1, now := [], trace := [], resetHeld := true,
          runs := if s.resetHeld = true ∧ ended = [] then s.runs else s.runs ++ [ended] }) ∧
    (s.levels.rst = false → step s = finishCycle (exec (stepInstr s.state) s))

/-- A reset held for any number of cycles (70_reset_and_hazards.md section 1): it is the end of one run, with `DIR(0)`
and `STATUS(0)` if those outputs were 1, and the start of another; meanwhile every register keeps its reset value, and
`buf` and the streams are as they were. That the held cycles make one reset is log entry 7; the order of its events is
log entry 6. -/
def Obligations.HeldResetEndsOneRun : Prop :=
  ∀ (s : State) (n : Nat), Inv s → s.resetHeld = false → n + 1 ≤ s.schedule.length →
    (∀ l ∈ s.schedule.take (n + 1), l.rst = true) →
    Sys2Proof.core.run (n + 1) s = .next
      { s with
        state := .startup, idx := 0#9, csum := 0#8, escRxPending := false, escTxPending := false,
        busDir := false, status := false, diagReq := true, diagCode := 1#4,
        schedule := s.schedule.drop (n + 1), cycle := s.cycle + (n + 1), trace := [], resetHeld := true,
        runs := s.runs ++ [s.trace ++
          if s.status then [(if s.busDir then [.dir false] else []) ++ [.status false]] else []] }

/-- A step runs the operation its state register decodes to, in a cycle without reset: the step is `exec` of it,
then the cycle's input levels are used up and the step's events join the trace. Every code of the register decodes,
to a well-formed operation (10_state.md section 3, 30_encoding.md section 4). -/
def Obligations.StepRunsDecodedOperation : Prop :=
  (∀ (s : State) (i : Instr) (rest : List Byte), s.levels.rst = false →
    decode .fsm (fetchWord s) = .ok i rest →
    rest = [] ∧ i.wf = true ∧
    step s =
      match exec i s with
      | .next t => .next
          { t with
            schedule := t.schedule.tail, cycle := t.cycle + 1, now := [], resetHeld := false,
            trace := if t.now = [] then t.trace else t.trace ++ [t.now] }
      | .fault r => .fault r
      | .refused r => .refused r) ∧
  ∀ s : State, ∃ i, decode .fsm (fetchWord s) = .ok i []

/-! ### The operations of the sub-blocks -/

/-- `HUNT.SYNC` and `HUNT.SKIP` on either channel: what they write, and nothing else (30_encoding.md section 2,
43_frame_relay_fsm.md section 3; in every state, log entry 9). -/
def Obligations.HuntOperations : Prop :=
  ∀ s : State,
    exec (.huntSync .host) s = .next { s with idx := 0#9, state := .readHost } ∧
    exec (.huntSync .bus) s = .next { s with idx := 0#9, state := .readBus } ∧
    ∀ r, exec (.huntSkip .host r) s = .next { s with state := .awaitHostSync } ∧
      exec (.huntSkip .bus r) s = .next { s with state := .awaitBusSync }

/-- `UNESC.LIT`, `UNESC.PFX`, `UNESC.ARG`: the logical byte produced, the flag, and nothing else
(41_byte_unescaper.md section 2). The outputs `have` and `v` are fields of the model's own (log entry 5); in every
state (log entry 9). -/
def Obligations.UnescaperOperations : Prop :=
  ∀ (s : State) (r : Byte),
    exec (.unescLit r) s = .next { s with out := { s.out with unescaped := some r } } ∧
    exec .unescPfx s =
      .next { s with escRxPending := true, out := { s.out with unescaped := none } } ∧
    exec (.unescArg r) s =
      .next { s with escRxPending := false, out := { s.out with unescaped := some (r + 1#8) } }

/-- `ESC.PASS`, `ESC.PFX`, `ESC.ARG` when the sink takes a byte: the byte sent, the flag, `advance`, and nothing else
(40_byte_escaper.md section 2; log entry 5 on `advance`, log entry 9 on the state). -/
def Obligations.EscaperOperations : Prop :=
  ∀ (s : State) (ch : Chan), s.txReady ch = true →
    (∀ v, exec (.escPass ch v) s =
      .next { s with now := s.now ++ [txEvent ch v], out := { s.out with advance := true } }) ∧
    exec (.escPfxD0 ch) s =
      .next { s with
        now := s.now ++ [txEvent ch 0xD0#8], escTxPending := true, out := { s.out with advance := false } } ∧
    exec (.escPfxE0 ch) s =
      .next { s with
        now := s.now ++ [txEvent ch 0xD0#8], escTxPending := true, out := { s.out with advance := false } } ∧
    ∀ v, exec (.escArg ch v) s =
      .next { s with
        now := s.now ++ [txEvent ch (v - 1#8)], escTxPending := false, out := { s.out with advance := true } }

/-- The escaper's operations wait for the sink and change nothing meanwhile (00_scope.md section 7). -/
def Obligations.EscaperOperationsWait : Prop :=
  ∀ (s : State) (ch : Chan), s.txReady ch = false → ∀ i v,
    i ∈ [Instr.escPass ch v, .escPfxD0 ch, .escPfxE0 ch, .escArg ch v] → exec i s = .next s

/-- `ESC.BATCH`, `UNESC.BATCH`, `CSUM.RANGE` return the value of their function and write no register, flag or cell
(sections 2 of 40_byte_escaper.md and 41_byte_unescaper.md, section 1 of 42_checksum_adder.md); where the value is
returned is the model's own (log entry 5). `Escape` is given byte by byte, `Unescape` by its four equations, the sum
by adding from the left. -/
def Obligations.BatchOperations : Prop :=
  ∀ (s : State) (a : List Byte),
    exec (.escBatch a) s = .next { s with out := { s.out with
      batch := a.flatMap fun v => if v = 0xD0#8 ∨ v = 0xE0#8 then [0xD0#8, v - 1#8] else [v] } } ∧
    exec (.csumRange a) s = .next { s with out := { s.out with
      rangeSum := a.foldl (fun x y => x + y) 0#8 } } ∧
    (∃ u : List Byte → List Byte × Bool,
      exec (.unescBatch a) s =
        .next { s with out := { s.out with batch := (u a).1, batchPending := (u a).2 } } ∧
      u [] = ([], false) ∧ u [0xD0#8] = ([], true) ∧
      (∀ c t, u (0xD0#8 :: c :: t) = ((c + 1#8) :: (u t).1, (u t).2)) ∧
      ∀ r t, r ≠ 0xD0#8 → u (r :: t) = (r :: (u t).1, (u t).2))

/-- R105: `Checksum` is the sum of the bytes modulo 256, with its value on the empty range and on a range of `n` bytes
0xFF, whatever the order of the bytes, and on the rule's example. `BatchOperations` says that `CSUM.RANGE` returns it. -/
def Obligations.ChecksumIsSum : Prop :=
  (∀ a : List Byte, (checksum a).toNat = (a.map BitVec.toNat).sum % 256) ∧
  checksum [] = 0#8 ∧
  (∀ n : Nat, ((checksum (List.replicate n 0xFF#8)).toNat : Int) = (256 - (n : Int)) % 256) ∧
  (∀ a b : List Byte, a.Perm b → checksum a = checksum b) ∧
  checksum [0x01#8, 0x03#8, 0xF1#8, 0xA5#8] = 0x9A#8

/-- The stepped form of the unescaper, the operations of the raw bytes run in order, produces exactly the bytes and
the final flag of `Unescape` (41_byte_unescaper.md section 2). -/
def Obligations.UnescapeSteppedIsUnescape : Prop :=
  ∀ (raw : List Byte) (s : State), s.escRxPending = false →
    (unescapeStepped raw s).1 = (unescape raw).1 ∧
    (unescapeStepped raw s).2.escRxPending = (unescape raw).2

/-- `CSUM.CLR`, `CSUM.ADD`, `CSUM.CMP`: the accumulator, the comparison, and nothing else (42_checksum_adder.md
section 2; log entry 5 on `equal`, log entry 9 on the state). -/
def Obligations.ChecksumOperations : Prop :=
  ∀ (s : State) (b : Byte),
    exec .csumClr s = .next { s with csum := 0#8 } ∧
    exec (.csumAdd b) s =
      .next { s with csum := BitVec.ofNat 8 ((s.csum.toNat + b.toNat) % 256) } ∧
    exec (.csumCmp b) s =
      .next { s with out := { s.out with equal := decide (s.csum = b) } }

/-- `CSUM.CLR`, then `CSUM.ADD` of every byte of a range, then `CSUM.CMP`: `csum` is the checksum of the range
whatever it was before, `equal` says whether it is the compared byte, and nothing else changes (42_checksum_adder.md
section 2). -/
def Obligations.ClearAddCompareIsChecksum : Prop :=
  ∀ (s : State) (a : List Byte) (cmp : Byte),
    execAll (.csumClr :: (a.map .csumAdd ++ [.csumCmp cmp])) s =
      .next { s with
        csum := checksum a, out := { s.out with equal := decide (checksum a = cmp) } }

/-- `DIR.ACQ`, `DIR.REL`, `STAT.ON`, `STAT.OFF`: the output, its event when it changes, and nothing else
(44_rs485_transceiver_arbiter.md sections 2 and 3; in every state, log entry 9). -/
def Obligations.ArbiterOperations : Prop :=
  ∀ s : State,
    exec .dirAcq s =
      .next { s with busDir := true, now := s.now ++ if s.busDir then [] else [.dir true] } ∧
    exec .dirRel s =
      .next { s with busDir := false, now := s.now ++ if s.busDir then [.dir false] else [] } ∧
    exec .statOn s =
      .next { s with status := true, now := s.now ++ if s.status then [] else [.status true] } ∧
    exec .statOff s =
      .next { s with status := false, now := s.now ++ if s.status then [.status false] else [] }

/-- `SENSE.NOP` does nothing (10_state.md section 8, 44_rs485_transceiver_arbiter.md section 4), and runs that differ
only in `bus_sense` are the same runs: the same trace, the same registers and outputs in every state. -/
def Obligations.BusSenseHasNoEffect : Prop :=
  (∀ (b : Bool) (s : State), exec (.senseNop b) s = .next s) ∧
  ∀ (n : Nat) (s : State),
    Sys2Proof.core.run n (blindToSense s) =
      match Sys2Proof.core.run n s with
      | .next t => .next (blindToSense t)
      | .fault r => .fault r
      | .refused r => .refused r

/-! ### Reports -/

/-- `DIAG.*` when its report is not in progress STARTS it: the code and the request are driven, control goes to the
cause's reporting state, and nothing else changes (60_exceptions.md sections 2 and 5; that a `DIAG` operation by
itself is one handshake of the report is log entry 8). -/
def Obligations.ReportStarts : Prop :=
  ∀ (i : Instr) (code : Nibble) (st : FsmState),
    (i, code, st) ∈
      [(Instr.diagStartup, 1#4, FsmState.startup), (.diagHostCsum, 2#4, .discard),
       (.diagResetAbsorbed, 3#4, .absorb), (.diagBusCsum, 4#4, .reportBusCsum)] →
    ∀ s : State, ¬ (s.diagReq = true ∧ s.diagCode = code) →
      exec i s = .next { s with diagCode := code, diagReq := true, state := st }

/-- `DIAG.*` when its report is in progress DELIVERS it once `diag_done = 1`, and waits before that (10_state.md
section 8, 60_exceptions.md sections 2 and 6; log entry 8). -/
def Obligations.ReportDelivered : Prop :=
  ∀ (i : Instr) (code : Nibble) (st : FsmState),
    (i, code, st) ∈
      [(Instr.diagStartup, 1#4, FsmState.awaitHostSync), (.diagHostCsum, 2#4, .awaitHostSync),
       (.diagResetAbsorbed, 3#4, .awaitHostSync), (.diagBusCsum, 4#4, .txHostSync)] →
    ∀ s : State, s.diagReq = true → s.diagCode = code →
      (s.levels.diagDone = true →
        exec i s = .next { s with
          diagReq := false, state := st, idx := if code = 4#4 then 0#9 else s.idx,
          now := s.now ++ [.diag code] }) ∧
      (s.levels.diagDone = false → exec i s = .next s)

/-- The reporting steps (43_frame_relay_fsm.md section 3): the step of a reporting state waits for `diag_done`, then
emits `DIAG(code)`, withdraws the request and goes on; no byte is taken or sent, and nothing else changes. `STARTUP`
is entered by reset alone; that the block reports the startup is the spec's own decision D6. -/
def Obligations.ReportingSteps : Prop :=
  (∀ (i : Instr) (code : Nibble) (st : FsmState),
    (i, code, st) ∈
      [(Instr.stStartup, 1#4, FsmState.awaitHostSync), (.stDiscard, 2#4, .awaitHostSync),
       (.stAbsorb, 3#4, .awaitHostSync), (.stReportBusCsum, 4#4, .txHostSync)] →
    ∀ s : State,
      (s.levels.diagDone = true →
        exec i s = .next { s with
          diagReq := false, state := st, idx := if code = 4#4 then 0#9 else s.idx,
          now := s.now ++ [.diag code] }) ∧
      (s.levels.diagDone = false → exec i s = .next s)) ∧
  ∀ s t : State, step s = .next t → t.state = .startup → s.levels.rst = true ∨ s.state = .startup

/-- Starting a report is precise (60_exceptions.md section 5): when a step of the relay enters a reporting state, the
request and the cause's code are driven, `buf` holds the frame just checked, `idx = L + 2`, `bus_dir = 0`, and
`status` is 1 for the bus-checksum report alone. -/
def Obligations.ReportEntryIsPrecise : Prop :=
  ∀ s t : State, Inv s → s.levels.rst = false → step s = .next t → reportOf s.state = none →
    ∀ d, reportOf t.state = some d →
      t.diagReq = true ∧ t.diagCode = d.code ∧ t.buf = s.buf ∧
      t.idx.toNat = t.length.toNat + 2 ∧ t.busDir = false ∧ (t.status = true ↔ d = .busCsum) ∧
      t.csum = checksum (s.cells (s.length.toNat + 1)) ∧ t.trace = s.trace

/-! ### The steps of the relay -/

/-- `ST.AWAIT_HOST_SYNC` and `ST.AWAIT_BUS_SYNC` (43_frame_relay_fsm.md section 3): one raw byte is taken; 0xE0 starts
a frame, any other byte is discarded; with no byte presented nothing changes. -/
def Obligations.HuntSteps : Prop :=
  ∀ (s : State) (r : Byte) (q : List Byte),
    (s.levels.hostRxValid = true → s.hostRx = r :: q →
      exec .stAwaitHostSync s = .next
        { s with
          hostRx := q, now := s.now ++ [.hrx r]
          idx := if r = 0xE0#8 then 0#9 else s.idx
          state := if r = 0xE0#8 then .readHost else .awaitHostSync }) ∧
    (s.levels.busRxValid = true → s.busRx = r :: q →
      exec .stAwaitBusSync s = .next
        { s with
          busRx := q, now := s.now ++ [.brx r]
          idx := if r = 0xE0#8 then 0#9 else s.idx
          state := if r = 0xE0#8 then .readBus else .awaitBusSync }) ∧
    (s.rxValid .host = false → exec .stAwaitHostSync s = .next s) ∧
    (s.rxValid .bus = false → exec .stAwaitBusSync s = .next s)

/-- `StoreLogical` and the read steps that use it (43_frame_relay_fsm.md sections 2 and 3): a raw byte that gives a
logical byte `v` stores it at `idx`, and there only; `idx` moves on by one; the frame is complete exactly when `idx`
has reached 2 at least and `length + 2`, with `length` as it stands after the store. The canonical form of the buffer
is kept. -/
def Obligations.ReadStepsStore : Prop :=
  ∀ (ch : Chan) (s : State) (r v : Byte) (q : List Byte),
    s.rxValid ch = true → s.rxQueue ch = r :: q → s.idx.toNat < 257 →
    (s.escRxPending = true ∧ v = r + 1#8 ∨ s.escRxPending = false ∧ r ≠ 0xD0#8 ∧ v = r) →
    ∃ t, exec (readInstr ch) s = .next t ∧
      t = { takenFrom ch r q s with
            buf := t.buf
            idx := s.idx + 1#9
            escRxPending := false
            out := { s.out with unescaped := some v }
            state :=
              if 2 ≤ s.idx.toNat + 1 ∧ s.idx.toNat + 1 = (t.cell 1).toNat + 2 then validateState ch
              else s.state } ∧
      (∀ a, t.cell a = if a = s.idx.toNat then v else s.cell a) ∧
      (∀ a, t.written a = (decide (a = s.idx.toNat) || s.written a)) ∧
      (Memory.wf s.buf = true → Memory.wf t.buf = true)

/-- The read steps on a raw 0xD0 with no prefix outstanding: the flag is set, nothing is stored, `idx` does not move;
and with no byte presented nothing changes (41_byte_unescaper.md section 2, 43_frame_relay_fsm.md section 3). -/
def Obligations.ReadStepsPrefixAndWait : Prop :=
  ∀ (ch : Chan) (s : State) (q : List Byte),
    (s.rxValid ch = true → s.rxQueue ch = 0xD0#8 :: q → s.escRxPending = false →
      exec (readInstr ch) s = .next
        { takenFrom ch 0xD0#8 q s with
          escRxPending := true, out := { s.out with unescaped := none } }) ∧
    (s.rxValid ch = false → exec (readInstr ch) s = .next s)

/-- An index outside `buf[0..256]` names no cell (10_state.md sections 1 and 7): a step that would store to or load
from one stops with a named fault, which is the model's choice (log entry 12). In no state with the invariant does a
read or a body-transmit state hold such an index (20_memory.md section 4). -/
def Obligations.IndexOutsideBufferFaults : Prop :=
  (∀ (ch : Chan) (s : State), 257 ≤ s.idx.toNat →
    exec (bodyInstr ch) s = .fault (.noSuchCell s.idx.toNat) ∧
    ∀ (r : Byte) (q : List Byte), s.rxValid ch = true → s.rxQueue ch = r :: q →
      (s.escRxPending = true ∨ r ≠ 0xD0#8) →
      exec (readInstr ch) s = .fault (.noSuchCell s.idx.toNat)) ∧
  ∀ s : State, Inv s → isReading s.state = true ∨ isSendingBody s.state = true → s.idx.toNat < 257

/-- `ST.VALIDATE_HOST` (43_frame_relay_fsm.md section 3) never waits; `csum` becomes the checksum of `buf[0..L]`; a
wrong trailing byte starts report 2; a right one with the reset-broadcast bytes starts report 3; any other right frame
acquires the bus, turns the indicator on and goes on to be sent. The two reset bytes are OPEN parameters (log entry
1); the two events of the forwarding step stand in the model's order (log entry 6). -/
def Obligations.ValidateHostStep : Prop :=
  ∀ s : State,
    let len := (s.cell 1).toNat
    let sum := checksum ((List.range (len + 1)).map s.cell)
    let c := { s with csum := sum, out := { s.out with equal := decide (sum = s.cell (len + 1)) } }
    let reset := s.cell 0 = 0xFF#8 ∧ s.cell 1 = 3#8 ∧ s.cell 2 = Config.resetP0 ∧ s.cell 3 = Config.resetP1
    (sum ≠ s.cell (len + 1) →
      exec .stValidateHost s = .next { c with diagCode := 2#4, diagReq := true, state := .discard }) ∧
    (sum = s.cell (len + 1) → reset →
      exec .stValidateHost s = .next { c with diagCode := 3#4, diagReq := true, state := .absorb }) ∧
    (sum = s.cell (len + 1) → ¬ reset →
      exec .stValidateHost s = .next
        { c with
          busDir := true, status := true, idx := 0#9, state := .txBusSync
          now := s.now ++ (if s.busDir then [] else [.dir true]) ++
            (if s.status then [] else [.status true]) })

/-- `ST.VALIDATE_BUS` (43_frame_relay_fsm.md section 3) never waits; `csum` becomes the checksum of `buf[0..L]`; a
right reply goes on to be sent, a wrong one starts report 4 first; no reset test is made. -/
def Obligations.ValidateBusStep : Prop :=
  ∀ s : State,
    let len := (s.cell 1).toNat
    let sum := checksum ((List.range (len + 1)).map s.cell)
    let c := { s with csum := sum, out := { s.out with equal := decide (sum = s.cell (len + 1)) } }
    (sum = s.cell (len + 1) →
      exec .stValidateBus s = .next { c with idx := 0#9, state := .txHostSync }) ∧
    (sum ≠ s.cell (len + 1) →
      exec .stValidateBus s = .next { c with diagCode := 4#4, diagReq := true, state := .reportBusCsum })

/-- R135, and the like step on the bus: the sync byte goes out raw once the stream takes a byte; before that nothing
changes. -/
def Obligations.SyncSteps : Prop :=
  ∀ (ch : Chan) (s : State),
    (s.txReady ch = true →
      exec (syncInstr ch) s =
        .next { s with state := bodyState ch, now := s.now ++ [txEvent ch 0xE0#8] }) ∧
    (s.txReady ch = false → exec (syncInstr ch) s = .next s)

/-- The body-transmit steps (43_frame_relay_fsm.md sections 2 and 3): for the logical byte `v = buf[idx]`, the second
beat of a pair, the first beat, or the byte itself is sent; `idx` moves on when the byte is finished, and the state is
left exactly when `idx` reaches `length + 2`; before the stream takes a byte nothing changes. -/
def Obligations.BodySteps : Prop :=
  ∀ (ch : Chan) (s : State), s.idx.toNat < 257 →
    let v := s.cell s.idx.toNat
    let next := if s.idx.toNat + 1 = (s.cell 1).toNat + 2 then flushState ch else s.state
    (s.txReady ch = true → s.escTxPending = true →
      exec (bodyInstr ch) s = .next
        { s with
          now := s.now ++ [txEvent ch (v - 1#8)], escTxPending := false, idx := s.idx + 1#9, state := next
          out := { s.out with advance := true } }) ∧
    (s.txReady ch = true → s.escTxPending = false → (v = 0xD0#8 ∨ v = 0xE0#8) →
      exec (bodyInstr ch) s = .next
        { s with
          now := s.now ++ [txEvent ch 0xD0#8], escTxPending := true
          out := { s.out with advance := false } }) ∧
    (s.txReady ch = true → s.escTxPending = false → ¬ (v = 0xD0#8 ∨ v = 0xE0#8) →
      exec (bodyInstr ch) s = .next
        { s with
          now := s.now ++ [txEvent ch v], idx := s.idx + 1#9, state := next
          out := { s.out with advance := true } }) ∧
    (s.txReady ch = false → exec (bodyInstr ch) s = .next s)

/-- The flush steps (43_frame_relay_fsm.md section 3): each waits for its stream to be idle; in the step in which it
is, the flush, the output's fall and the move to the next state happen together, and nothing else changes; the two
events of that step stand in the model's order (log entry 6). -/
def Obligations.FlushSteps : Prop :=
  ∀ s : State,
    (s.levels.busTxIdle = true →
      exec .stTxBusFlush s = .next
        { s with
          busDir := false, state := .awaitBusSync
          now := s.now ++ .bflush :: if s.busDir then [.dir false] else [] }) ∧
    (s.levels.busTxIdle = false → exec .stTxBusFlush s = .next s) ∧
    (s.levels.hostTxIdle = true →
      exec .stTxHostFlush s = .next
        { s with
          status := false, state := .awaitHostSync
          now := s.now ++ .hflush :: if s.status then [.status false] else [] }) ∧
    (s.levels.hostTxIdle = false → exec .stTxHostFlush s = .next s)

/-- The steps that take or send a byte run the operation of the byte's class (30_encoding.md sections 2 and 5): the
hunts that of `decodeHunt`, the read steps that of `decodeBody` before the store, the body-transmit steps that of
`decodeTx` before `idx` moves. A store outside the buffer faults, which is the model's choice (log entry 12). -/
def Obligations.StepsRunTheByteClass : Prop :=
  ∀ (ch : Chan) (s : State),
    (∀ r q, s.rxValid ch = true → s.rxQueue ch = r :: q →
      exec (awaitInstr ch) s = exec (decodeHunt ch r) (takenFrom ch r q s) ∧
      ∃ u, exec (decodeBody s.escRxPending r) (takenFrom ch r q s) = .next u ∧
        exec (readInstr ch) s =
          match u.out.unescaped with
          | none => .next u
          | some v =>
            if u.idx.toNat < 257 then .next (storeLogical v (validateState ch) u)
            else .fault (.noSuchCell u.idx.toNat)) ∧
    (s.txReady ch = true → s.idx.toNat < 257 →
      ∃ u, exec (decodeTx ch s.escTxPending (s.cell s.idx.toNat)) s = .next u ∧
        exec (bodyInstr ch) s = .next (afterBeat (flushState ch) u))

/-! ### Whole-machine rules -/

/-- Each register, the state register among them, each flag, output, buffer cell and receive stream is written by the
operations the spec names for it and by no other (10_state.md sections 2 to 5 and 7, 20_memory.md section 1); no
operation touches the input levels to come, the cycle count or the earlier trace. -/
def Obligations.WrittenOnlyBy : Prop :=
  ∀ (i : Instr) (s t : State), exec i s = .next t →
    (t.state ≠ s.state →
      i ∈ [Instr.diagStartup, .diagHostCsum, .diagResetAbsorbed, .diagBusCsum] ∨ (∃ st, i = stepInstr st) ∨
        ∃ ch r, i ∈ [Instr.huntSync ch, .huntSkip ch r]) ∧
    (t.idx ≠ s.idx →
      i ∈ [Instr.stAwaitHostSync, .stReadHost, .stValidateHost, .stTxBusBody, .stAwaitBusSync, .stReadBus,
        .stValidateBus, .stReportBusCsum, .stTxHostBody, .diagBusCsum] ∨ ∃ ch, i = .huntSync ch) ∧
    (t.busDir ≠ s.busDir → i ∈ [Instr.dirAcq, .dirRel, .stValidateHost, .stTxBusFlush]) ∧
    (t.status ≠ s.status → i ∈ [Instr.statOn, .statOff, .stValidateHost, .stTxHostFlush]) ∧
    (t.diagCode ≠ s.diagCode →
      i ∈ [Instr.diagStartup, .diagHostCsum, .diagResetAbsorbed, .diagBusCsum, .stValidateHost,
        .stValidateBus]) ∧
    (t.diagReq ≠ s.diagReq →
      i ∈ [Instr.diagStartup, .diagHostCsum, .diagResetAbsorbed, .diagBusCsum, .stValidateHost,
        .stValidateBus, .stStartup, .stDiscard, .stAbsorb, .stReportBusCsum]) ∧
    (t.csum ≠ s.csum →
      i ∈ [Instr.csumClr, .stValidateHost, .stValidateBus] ∨ ∃ b, i = .csumAdd b) ∧
    (t.escRxPending ≠ s.escRxPending →
      i ∈ [Instr.unescPfx, .stReadHost, .stReadBus] ∨ ∃ c, i = .unescArg c) ∧
    (t.escTxPending ≠ s.escTxPending →
      i ∈ [Instr.stTxBusBody, .stTxHostBody] ∨
        ∃ ch v, i ∈ [Instr.escPfxD0 ch, .escPfxE0 ch, .escArg ch v]) ∧
    ((∃ a, t.cell a ≠ s.cell a) → i ∈ [Instr.stReadHost, .stReadBus]) ∧
    (t.hostRx ≠ s.hostRx → i ∈ [Instr.stAwaitHostSync, .stReadHost]) ∧
    (t.busRx ≠ s.busRx → i ∈ [Instr.stAwaitBusSync, .stReadBus]) ∧
    t.schedule = s.schedule ∧ t.cycle = s.cycle ∧ t.trace = s.trace ∧ t.runs = s.runs ∧
    t.resetHeld = s.resetHeld

/-- The transitions of the relay (43_frame_relay_fsm.md section 1): without reset a step stays in its state or takes
one of these, and no others. -/
def Obligations.TransitionGraph : Prop :=
  ∀ s t : State, s.levels.rst = false → step s = .next t →
    t.state = s.state ∨
    (s.state, t.state) ∈
      [(FsmState.startup, FsmState.awaitHostSync), (.awaitHostSync, .readHost), (.readHost, .validateHost),
       (.validateHost, .discard), (.validateHost, .absorb), (.validateHost, .txBusSync),
       (.discard, .awaitHostSync), (.absorb, .awaitHostSync), (.txBusSync, .txBusBody),
       (.txBusBody, .txBusFlush), (.txBusFlush, .awaitBusSync), (.awaitBusSync, .readBus),
       (.readBus, .validateBus), (.validateBus, .txHostSync), (.validateBus, .reportBusCsum),
       (.reportBusCsum, .txHostSync), (.txHostSync, .txHostBody), (.txHostBody, .txHostFlush),
       (.txHostFlush, .awaitHostSync)]

/-- A step whose primitive is blocked does not fire: a cycle passes and nothing else changes (00_scope.md section 7;
log entry 10); what each state waits for is the table of 70_reset_and_hazards.md section 3. Only a body-transmit state
asks that `idx` name a cell. -/
def Obligations.BlockedStepChangesNothing : Prop :=
  ∀ s : State, s.levels.rst = false → s.now = [] →
    (isSendingBody s.state = true → s.idx.toNat < 257) →
    ((reportOf s.state).isSome = true ∧ s.levels.diagDone = false ∨
      (∃ ch, s.rxReady ch = true ∧ s.rxValid ch = false) ∨
      (∃ ch, s.txValid ch = true ∧ s.txReady ch = false) ∨
      (∃ ch, s.state = flushState ch ∧ s.txIdle ch = false)) →
    step s = .next { s with schedule := s.schedule.tail, cycle := s.cycle + 1, resetHeld := false }

/-- The stream handshake (10_state.md section 8): a byte leaves a receive stream in a cycle exactly when `valid` and
`ready` are both 1, and joins the history; the raw byte sent in a cycle is the offered one, exactly when `valid` and
`ready` are both 1. In a reset cycle neither is (log entry 11). -/
def Obligations.StreamHandshake : Prop :=
  ∀ s t : State, s.now = [] → step s = .next t → ∀ ch,
    (s.rxValid ch = true ∧ s.rxReady ch = true →
      ∃ r q, s.rxQueue ch = r :: q ∧ t.rxQueue ch = q ∧
        bytesTaken ch t.history = bytesTaken ch s.history ++ [r]) ∧
    (¬ (s.rxValid ch = true ∧ s.rxReady ch = true) →
      t.rxQueue ch = s.rxQueue ch ∧ bytesTaken ch t.history = bytesTaken ch s.history) ∧
    (s.txValid ch = true ∧ s.txReady ch = true →
      ∃ b, s.txData ch = some b ∧ bytesSent ch t.history = bytesSent ch s.history ++ [b]) ∧
    (¬ (s.txValid ch = true ∧ s.txReady ch = true) →
      bytesSent ch t.history = bytesSent ch s.history)

/-- The inputs a state does not wait for are not looked at (60_exceptions.md sections 3 and 4): two cycles that differ
only in them give the same outcome. -/
def Obligations.UnusedInputsAreIgnored : Prop :=
  ∀ (s : State) (l m : Levels) (later : List Levels),
    l.rst = m.rst →
    ((reportOf s.state).isSome = true → l.diagDone = m.diagDone) →
    (s.state = .awaitHostSync ∨ s.state = .readHost → l.hostRxValid = m.hostRxValid) →
    (s.state = .awaitBusSync ∨ s.state = .readBus → l.busRxValid = m.busRxValid) →
    (s.state = .txHostSync ∨ s.state = .txHostBody → l.hostTxReady = m.hostTxReady) →
    (s.state = .txBusSync ∨ s.state = .txBusBody → l.busTxReady = m.busTxReady) →
    (s.state = .txHostFlush → l.hostTxIdle = m.hostTxIdle) →
    (s.state = .txBusFlush → l.busTxIdle = m.busTxIdle) →
    step { s with schedule := l :: later } = step { s with schedule := m :: later }

/-- The combinational outputs that the model keeps in State are never read before they are written (log entry 5): a
step does the same whatever they hold. -/
def Obligations.StaleOutputsAreNeverRead : Prop :=
  ∀ (s t : State) (o : Outputs), step s = .next t →
    ∃ o', step { s with out := o } = .next { t with out := o' }

/-! ### Invariants -/

/-- The invariant of the reachable states holds after reset, whatever the stimulus. -/
def Obligations.InvariantAtReset : Prop :=
  Inv State.reset ∧ ∀ host bus levels, Inv (stimulated host bus levels)

/-- Every step keeps the invariant: the flags, the output windows, the report in progress, the index, and the written
cells of the frame (10_state.md sections 2 to 5, 20_memory.md section 4, 44_rs485_transceiver_arbiter.md sections 2
and 3). -/
def Obligations.StepKeepsInvariant : Prop :=
  ∀ s t : State, Inv s → step s = .next t → Inv t

/-- From every state with the invariant the step answers a next state: no fault and no refusal (00_scope.md section 7,
20_memory.md sections 4 and 6). -/
def Obligations.InvariantStatesAreSafe : Prop :=
  ∀ s : State, Inv s → StepSafe s

/-- The direction window along the trace of a run (44_rs485_transceiver_arbiter.md section 2): if every bus byte sent
so far and every bus flush lies between a `DIR(1)` and the next `DIR(0)`, every bus byte taken lies outside, and the
last level is `bus_dir`, the same holds after any step from a state with the invariant, a reset included; and if every
run that a reset has ended ended with `bus_dir = 0`, so does every one after the step (log entries 6 and 7 on the
trace). -/
def Obligations.StepKeepsDirectionDiscipline : Prop :=
  ∀ s t : State, Inv s → followDir false s.trace.flatten = some s.busDir → step s = .next t →
    followDir false t.trace.flatten = some t.busDir ∧
    ((∀ r ∈ s.runs, followDir false r.flatten = some false) → ∀ r ∈ t.runs, followDir false r.flatten = some false)

/-- 44_rs485_transceiver_arbiter.md section 3: the status window in every reachable state, its form by state codes,
and that it contains the direction window. -/
def Obligations.StatusWindow : Prop :=
  ∀ s : State, Reachable s →
    (s.status = true ↔
      s.state ∈ [FsmState.txBusSync, .txBusBody, .txBusFlush, .awaitBusSync, .readBus, .validateBus,
        .reportBusCsum, .txHostSync, .txHostBody, .txHostFlush]) ∧
    (s.status = true ↔ 6 ≤ s.state.code.toNat) ∧
    (s.busDir = true → s.status = true)

/-- The direction window in every reachable state, and in the whole trace of every run, the runs that a reset has
ended included (44_rs485_transceiver_arbiter.md section 2; log entries 6 and 7 on the trace). -/
def Obligations.DirectionWindow : Prop :=
  ∀ s : State, Reachable s →
    (s.busDir = true ↔ s.state ∈ [FsmState.txBusSync, .txBusBody, .txBusFlush]) ∧
    followDir false s.trace.flatten = some s.busDir ∧
    ∀ r ∈ s.runs, followDir false r.flatten = some false

/-- Flags, index and report request in every reachable state (10_state.md sections 2, 4 and 5, 20_memory.md section
4): where each flag can be 1, that both are 0 when the state changes, `diag_req` and the codes driven, `idx` at most
257, and the code driven in each reporting state, and that the validate and transmit steps read only written cells of
the buffer, the cell at `idx` among them. -/
def Obligations.ReachableRegisters : Prop :=
  ∀ s : State, Reachable s →
    (s.escRxPending = true → s.state = .readHost ∨ s.state = .readBus) ∧
    (s.escTxPending = true → s.state = .txBusBody ∨ s.state = .txHostBody) ∧
    (∀ t, step s = .next t → t.state ≠ s.state → t.escRxPending = false ∧ t.escTxPending = false) ∧
    (s.diagReq = true ↔ s.state ∈ [FsmState.startup, .discard, .absorb, .reportBusCsum]) ∧
    s.diagCode ∈ [1#4, 2#4, 3#4, 4#4] ∧
    (∀ p ∈ [(FsmState.startup, 1#4), (.discard, 2#4), (.absorb, 3#4), (.reportBusCsum, 4#4)],
      s.state = p.1 → s.diagCode = p.2) ∧
    s.idx.toNat ≤ 257 ∧
    (s.state ∈ [FsmState.validateHost, .validateBus, .txBusBody, .txHostBody] →
      ∀ a, a ≤ s.length.toNat + 1 → s.written a = true) ∧
    (s.state = .txBusBody ∨ s.state = .txHostBody →
      s.idx.toNat ≤ s.length.toNat + 1 ∧ s.written s.idx.toNat = true) ∧
    StepSafe s

/-! ### Whole frames -/

/-- A frame is received whole (43_frame_relay_fsm.md sections 2 and 4, 30_encoding.md section 3): from the start of a
read state, raw bytes that unescape to the `length + 2` logical bytes of a frame, however they are spelled, are stored
in order from cell 0, one a step, and the last of them leaves the state. -/
def Obligations.FrameIsReceived : Prop :=
  ∀ (ch : Chan) (s : State) (raw rest body : List Byte) (len : Byte),
    unescape raw = (body, false) → body[1]? = some len → body.length = len.toNat + 2 →
    s.state = readState ch → s.idx = 0#9 → s.escRxPending = false → s.now = [] →
    s.rxQueue ch = raw ++ rest → grantsFor raw.length s →
    ∃ t, Sys2Proof.core.run raw.length s = .next t ∧
      t.state = validateState ch ∧ t.cells body.length = body ∧ t.idx.toNat = body.length ∧
      t.escRxPending = false ∧ t.rxQueue ch = rest ∧
      t.trace = s.trace ++ takenTrace ch raw ∧ t.runs = s.runs ∧
      (∀ a, body.length ≤ a → t.cell a = s.cell a) ∧
      t.csum = s.csum ∧ t.busDir = s.busDir ∧ t.status = s.status ∧ t.diagReq = s.diagReq ∧
      t.diagCode = s.diagCode ∧ t.escTxPending = s.escTxPending

/-- A frame is sent whole (40_byte_escaper.md section 2, 43_frame_relay_fsm.md section 2): from the start of a
body-transmit state the raw bytes sent are exactly `Escape(buf[0..L+1])`, one a step, and the last of them leaves the
state. -/
def Obligations.FrameIsSent : Prop :=
  ∀ (ch : Chan) (s : State),
    let body := s.cells (s.length.toNat + 2)
    s.state = bodyState ch → s.idx = 0#9 → s.escTxPending = false → s.now = [] →
    grantsFor (escape body).length s →
    ∃ t, Sys2Proof.core.run (escape body).length s = .next t ∧
      t.state = flushState ch ∧ t.idx.toNat = s.length.toNat + 2 ∧ t.escTxPending = false ∧
      t.trace = s.trace ++ sentTrace ch (escape body) ∧ t.runs = s.runs ∧
      t.buf = s.buf ∧ t.hostRx = s.hostRx ∧ t.busRx = s.busRx ∧ t.csum = s.csum ∧ t.busDir = s.busDir ∧
      t.status = s.status ∧ t.diagReq = s.diagReq ∧ t.diagCode = s.diagCode ∧
      t.escRxPending = s.escRxPending

/-- Outcome (a) of an iteration (43_frame_relay_fsm.md section 4): a well-formed host frame that is not the
reset-broadcast, preceded by any bytes but 0xE0, and one bus frame with its checksum right or wrong, preceded
likewise, are relayed; the trace grows by exactly the events of that outcome, with `DIAG(4)` exactly when the reply's
checksum is wrong. The environment grants every handshake; the events of one step stand in the model's order (log
entry 6). -/
def Obligations.FramePairIsRelayed : Prop :=
  ∀ (s : State) (f g : Frame) (hostNoise busNoise hostRest busRest : List Byte),
    Inv s → s.state = .awaitHostSync →
    f.wf = true → ¬ isResetFrame f → g.counted = true →
    Config.sync ∉ hostNoise → Config.sync ∉ busNoise →
    s.hostRx = hostNoise ++ f.wire ++ hostRest → s.busRx = busNoise ++ g.wire ++ busRest →
    let diag : List (List Event) := if g.wf then [] else [[.diag 4#4]]
    let n := hostNoise.length + 2 * f.wire.length + 1 + 1 + busNoise.length + 2 * g.wire.length + 1 +
      diag.length + 1
    grantsFor n s →
    ∃ t, Sys2Proof.core.run n s = .next t ∧
      t.state = .awaitHostSync ∧ t.hostRx = hostRest ∧ t.busRx = busRest ∧ t.runs = s.runs ∧
      t.trace = s.trace ++ takenTrace .host (hostNoise ++ f.wire) ++ [[.dir true, .status true]] ++
        sentTrace .bus f.wire ++ [[.bflush, .dir false]] ++ takenTrace .bus (busNoise ++ g.wire) ++
        diag ++ sentTrace .host g.wire ++ [[.hflush, .status false]]

/-- Outcomes (b) and (c) of an iteration (43_frame_relay_fsm.md section 4): a host frame with a wrong checksum is
dropped with `DIAG(2)`, the reset-broadcast is absorbed with `DIAG(3)`; nothing is sent on either channel, no output
changes, and the hunt resumes after the frame. -/
def Obligations.HostFrameIsDroppedOrAbsorbed : Prop :=
  ∀ (s : State) (f : Frame) (noise rest : List Byte) (code : Nibble),
    Inv s → s.state = .awaitHostSync → f.counted = true → Config.sync ∉ noise →
    s.hostRx = noise ++ f.wire ++ rest →
    (f.wf = false ∧ code = 2#4 ∨ f.wf = true ∧ isResetFrame f ∧ code = 3#4) →
    grantsFor (noise.length + f.wire.length + 2) s →
    ∃ t, Sys2Proof.core.run (noise.length + f.wire.length + 2) s = .next t ∧
      t.state = .awaitHostSync ∧ t.hostRx = rest ∧ t.busRx = s.busRx ∧ t.runs = s.runs ∧
      t.busDir = false ∧ t.status = false ∧ t.diagReq = false ∧ t.diagCode = code ∧
      t.trace = s.trace ++ takenTrace .host (noise ++ f.wire) ++ [[.diag code]]
end

