-- ==== Sys2Proof/Laws/Memory.lean ====
section
/-! SUPPORT. The frame buffer: a read after a write, and the canonical form every operation keeps. -/

namespace Sys2Proof.Machine

theorem Memory.read_write (a b : Nat) (v : Byte) (m : List Host.Cell) :
    Memory.read b (Memory.write a v m) = if b = a then some v else Memory.read b m := by
  induction m with
  | nil =>
    rcases eq_or_ne b a with rfl | h
    · simp [Memory.write, Memory.read]
    · simp [Memory.write, Memory.read, h, h.symm]
  | cons kw m ih =>
    obtain ⟨k, w⟩ := kw
    unfold Memory.write
    split
    · rcases eq_or_ne b a with rfl | h
      · simp [Memory.read]
      · simp [Memory.read, h, h.symm]
    · split
      · rename_i heq
        subst heq
        rcases eq_or_ne b a with rfl | h
        · simp [Memory.read]
        · simp [Memory.read, h, h.symm]
      · rename_i hne
        rcases eq_or_ne k b with rfl | hk
        · have : k ≠ a := fun h => hne h.symm
          simp [Memory.read, this]
        · simp [Memory.read, hk, ih]

/-- A read after a write to the same cell gives the value written. -/
@[simp] theorem Memory.read_write_same (a : Nat) (v : Byte) (m : List Host.Cell) :
    Memory.read a (Memory.write a v m) = some v := by
  simp [Memory.read_write]

/-- A write leaves every other cell alone. -/
theorem Memory.read_write_other {a b : Nat} (h : b ≠ a) (v : Byte) (m : List Host.Cell) :
    Memory.read b (Memory.write a v m) = Memory.read b m := by
  simp [Memory.read_write, h]

theorem Memory.wfFrom_write {a : Nat} (ha : a < Config.bufCap) (v : Byte) :
    ∀ (m : List Host.Cell) (lo : Nat), lo ≤ a → Memory.wfFrom lo m = true →
      Memory.wfFrom lo (Memory.write a v m) = true := by
  intro m
  induction m with
  | nil => intro lo hlo _; simp [Memory.write, Memory.wfFrom, hlo, ha]
  | cons kw m ih =>
    obtain ⟨k, w⟩ := kw
    intro lo hlo hwf
    simp only [Memory.wfFrom, Bool.and_eq_true, decide_eq_true_eq] at hwf
    obtain ⟨⟨h1, h2⟩, h3⟩ := hwf
    unfold Memory.write
    split
    · rename_i hlt
      simp [Memory.wfFrom, hlo, ha, h2, h3]
      omega
    · split
      · rename_i heq
        subst heq
        simp [Memory.wfFrom, h1, h2, h3]
      · rename_i h4 h5
        have : k + 1 ≤ a := by omega
        simp [Memory.wfFrom, h1, h2, ih (k + 1) this h3]

/-- Writing a cell of the buffer keeps the canonical form. -/
theorem Memory.wf_write {a : Nat} (ha : a < Config.bufCap) (v : Byte) {m : List Host.Cell}
    (h : Memory.wf m = true) : Memory.wf (Memory.write a v m) = true :=
  Memory.wfFrom_write ha v m 0 (Nat.zero_le a) h

/-- The buffer after reset has the canonical form. -/
theorem reset_buf_wf : Memory.wf State.reset.buf = true := rfl

/-! ### The same for cells of State -/

theorem State.cell_setCell (s : State) (a b : Nat) (v : Byte) :
    (s.setCell a v).cell b = if b = a then v else s.cell b := by
  unfold State.cell State.setCell
  by_cases h : b = a <;> simp [Memory.read_write, h]

theorem State.written_setCell (s : State) (a b : Nat) (v : Byte) :
    (s.setCell a v).written b = (decide (b = a) || s.written b) := by
  unfold State.written State.setCell
  by_cases h : b = a <;> simp [Memory.read_write, h]

end Sys2Proof.Machine
end

