-- ==== Sys2Proof/Laws/State.lean ====
section
/-! SUPPORT. One lemma for each field after each update of State, so that no later proof unfolds an update. -/

namespace Sys2Proof.Machine

theorem State.levels_of_schedule {s t : State} (h : s.schedule = t.schedule) (h' : s.cycle = t.cycle) :
    s.levels = t.levels := by
  simp [State.levels, h, h']

theorem State.cell_of_buf {s t : State} (h : s.buf = t.buf) (a : Nat) : s.cell a = t.cell a := by
  simp [State.cell, h]

theorem State.written_of_buf {s t : State} (h : s.buf = t.buf) (a : Nat) : s.written a = t.written a := by
  simp [State.written, h]

@[simp] theorem FsmState.ofCode_code (st : FsmState) : FsmState.ofCode st.code = st := by cases st <;> rfl

/-! ### `emit` -/

@[simp] theorem emit_state (s : State) (e : Event) : (s.emit e).state = s.state := rfl
@[simp] theorem emit_buf (s : State) (e : Event) : (s.emit e).buf = s.buf := rfl
@[simp] theorem emit_idx (s : State) (e : Event) : (s.emit e).idx = s.idx := rfl
@[simp] theorem emit_csum (s : State) (e : Event) : (s.emit e).csum = s.csum := rfl
@[simp] theorem emit_escRxPending (s : State) (e : Event) : (s.emit e).escRxPending = s.escRxPending := rfl
@[simp] theorem emit_escTxPending (s : State) (e : Event) : (s.emit e).escTxPending = s.escTxPending := rfl
@[simp] theorem emit_busDir (s : State) (e : Event) : (s.emit e).busDir = s.busDir := rfl
@[simp] theorem emit_status (s : State) (e : Event) : (s.emit e).status = s.status := rfl
@[simp] theorem emit_diagReq (s : State) (e : Event) : (s.emit e).diagReq = s.diagReq := rfl
@[simp] theorem emit_diagCode (s : State) (e : Event) : (s.emit e).diagCode = s.diagCode := rfl
@[simp] theorem emit_hostRx (s : State) (e : Event) : (s.emit e).hostRx = s.hostRx := rfl
@[simp] theorem emit_busRx (s : State) (e : Event) : (s.emit e).busRx = s.busRx := rfl
@[simp] theorem emit_schedule (s : State) (e : Event) : (s.emit e).schedule = s.schedule := rfl
@[simp] theorem emit_cycle (s : State) (e : Event) : (s.emit e).cycle = s.cycle := rfl
@[simp] theorem emit_out (s : State) (e : Event) : (s.emit e).out = s.out := rfl
@[simp] theorem emit_now (s : State) (e : Event) : (s.emit e).now = s.now ++ [e] := rfl
@[simp] theorem emit_trace (s : State) (e : Event) : (s.emit e).trace = s.trace := rfl
@[simp] theorem emit_runs (s : State) (e : Event) : (s.emit e).runs = s.runs := rfl
@[simp] theorem emit_resetHeld (s : State) (e : Event) : (s.emit e).resetHeld = s.resetHeld := rfl

/-! ### `setCell` -/

@[simp] theorem setCell_state (s : State) (a : Nat) (v : Byte) : (s.setCell a v).state = s.state := rfl
@[simp] theorem setCell_buf (s : State) (a : Nat) (v : Byte) : (s.setCell a v).buf = Memory.write a v s.buf := rfl
@[simp] theorem setCell_idx (s : State) (a : Nat) (v : Byte) : (s.setCell a v).idx = s.idx := rfl
@[simp] theorem setCell_csum (s : State) (a : Nat) (v : Byte) : (s.setCell a v).csum = s.csum := rfl
@[simp] theorem setCell_escRxPending (s : State) (a : Nat) (v : Byte) : (s.setCell a v).escRxPending = s.escRxPending := rfl
@[simp] theorem setCell_escTxPending (s : State) (a : Nat) (v : Byte) : (s.setCell a v).escTxPending = s.escTxPending := rfl
@[simp] theorem setCell_busDir (s : State) (a : Nat) (v : Byte) : (s.setCell a v).busDir = s.busDir := rfl
@[simp] theorem setCell_status (s : State) (a : Nat) (v : Byte) : (s.setCell a v).status = s.status := rfl
@[simp] theorem setCell_diagReq (s : State) (a : Nat) (v : Byte) : (s.setCell a v).diagReq = s.diagReq := rfl
@[simp] theorem setCell_diagCode (s : State) (a : Nat) (v : Byte) : (s.setCell a v).diagCode = s.diagCode := rfl
@[simp] theorem setCell_hostRx (s : State) (a : Nat) (v : Byte) : (s.setCell a v).hostRx = s.hostRx := rfl
@[simp] theorem setCell_busRx (s : State) (a : Nat) (v : Byte) : (s.setCell a v).busRx = s.busRx := rfl
@[simp] theorem setCell_schedule (s : State) (a : Nat) (v : Byte) : (s.setCell a v).schedule = s.schedule := rfl
@[simp] theorem setCell_cycle (s : State) (a : Nat) (v : Byte) : (s.setCell a v).cycle = s.cycle := rfl
@[simp] theorem setCell_out (s : State) (a : Nat) (v : Byte) : (s.setCell a v).out = s.out := rfl
@[simp] theorem setCell_now (s : State) (a : Nat) (v : Byte) : (s.setCell a v).now = s.now := rfl
@[simp] theorem setCell_trace (s : State) (a : Nat) (v : Byte) : (s.setCell a v).trace = s.trace := rfl
@[simp] theorem setCell_runs (s : State) (a : Nat) (v : Byte) : (s.setCell a v).runs = s.runs := rfl
@[simp] theorem setCell_resetHeld (s : State) (a : Nat) (v : Byte) : (s.setCell a v).resetHeld = s.resetHeld := rfl

/-! ### `startReport` -/

@[simp] theorem startReport_state (d : Diag) (s : State) : (startReport d s).state = reportingState d := rfl
@[simp] theorem startReport_buf (d : Diag) (s : State) : (startReport d s).buf = s.buf := rfl
@[simp] theorem startReport_idx (d : Diag) (s : State) : (startReport d s).idx = s.idx := rfl
@[simp] theorem startReport_csum (d : Diag) (s : State) : (startReport d s).csum = s.csum := rfl
@[simp] theorem startReport_escRxPending (d : Diag) (s : State) : (startReport d s).escRxPending = s.escRxPending := rfl
@[simp] theorem startReport_escTxPending (d : Diag) (s : State) : (startReport d s).escTxPending = s.escTxPending := rfl
@[simp] theorem startReport_busDir (d : Diag) (s : State) : (startReport d s).busDir = s.busDir := rfl
@[simp] theorem startReport_status (d : Diag) (s : State) : (startReport d s).status = s.status := rfl
@[simp] theorem startReport_diagReq (d : Diag) (s : State) : (startReport d s).diagReq = true := rfl
@[simp] theorem startReport_diagCode (d : Diag) (s : State) : (startReport d s).diagCode = d.code := rfl
@[simp] theorem startReport_hostRx (d : Diag) (s : State) : (startReport d s).hostRx = s.hostRx := rfl
@[simp] theorem startReport_busRx (d : Diag) (s : State) : (startReport d s).busRx = s.busRx := rfl
@[simp] theorem startReport_schedule (d : Diag) (s : State) : (startReport d s).schedule = s.schedule := rfl
@[simp] theorem startReport_cycle (d : Diag) (s : State) : (startReport d s).cycle = s.cycle := rfl
@[simp] theorem startReport_out (d : Diag) (s : State) : (startReport d s).out = s.out := rfl
@[simp] theorem startReport_now (d : Diag) (s : State) : (startReport d s).now = s.now := rfl
@[simp] theorem startReport_trace (d : Diag) (s : State) : (startReport d s).trace = s.trace := rfl
@[simp] theorem startReport_runs (d : Diag) (s : State) : (startReport d s).runs = s.runs := rfl
@[simp] theorem startReport_resetHeld (d : Diag) (s : State) : (startReport d s).resetHeld = s.resetHeld := rfl

/-! ### `huntFound` -/

@[simp] theorem huntFound_state (ch : Chan) (s : State) : (huntFound ch s).state = readState ch := rfl
@[simp] theorem huntFound_buf (ch : Chan) (s : State) : (huntFound ch s).buf = s.buf := rfl
@[simp] theorem huntFound_idx (ch : Chan) (s : State) : (huntFound ch s).idx = 0#9 := rfl
@[simp] theorem huntFound_csum (ch : Chan) (s : State) : (huntFound ch s).csum = s.csum := rfl
@[simp] theorem huntFound_escRxPending (ch : Chan) (s : State) : (huntFound ch s).escRxPending = s.escRxPending := rfl
@[simp] theorem huntFound_escTxPending (ch : Chan) (s : State) : (huntFound ch s).escTxPending = s.escTxPending := rfl
@[simp] theorem huntFound_busDir (ch : Chan) (s : State) : (huntFound ch s).busDir = s.busDir := rfl
@[simp] theorem huntFound_status (ch : Chan) (s : State) : (huntFound ch s).status = s.status := rfl
@[simp] theorem huntFound_diagReq (ch : Chan) (s : State) : (huntFound ch s).diagReq = s.diagReq := rfl
@[simp] theorem huntFound_diagCode (ch : Chan) (s : State) : (huntFound ch s).diagCode = s.diagCode := rfl
@[simp] theorem huntFound_hostRx (ch : Chan) (s : State) : (huntFound ch s).hostRx = s.hostRx := rfl
@[simp] theorem huntFound_busRx (ch : Chan) (s : State) : (huntFound ch s).busRx = s.busRx := rfl
@[simp] theorem huntFound_schedule (ch : Chan) (s : State) : (huntFound ch s).schedule = s.schedule := rfl
@[simp] theorem huntFound_cycle (ch : Chan) (s : State) : (huntFound ch s).cycle = s.cycle := rfl
@[simp] theorem huntFound_out (ch : Chan) (s : State) : (huntFound ch s).out = s.out := rfl
@[simp] theorem huntFound_now (ch : Chan) (s : State) : (huntFound ch s).now = s.now := rfl
@[simp] theorem huntFound_trace (ch : Chan) (s : State) : (huntFound ch s).trace = s.trace := rfl
@[simp] theorem huntFound_runs (ch : Chan) (s : State) : (huntFound ch s).runs = s.runs := rfl
@[simp] theorem huntFound_resetHeld (ch : Chan) (s : State) : (huntFound ch s).resetHeld = s.resetHeld := rfl

/-! ### `huntSkipped` -/

@[simp] theorem huntSkipped_state (ch : Chan) (s : State) : (huntSkipped ch s).state = huntState ch := rfl
@[simp] theorem huntSkipped_buf (ch : Chan) (s : State) : (huntSkipped ch s).buf = s.buf := rfl
@[simp] theorem huntSkipped_idx (ch : Chan) (s : State) : (huntSkipped ch s).idx = s.idx := rfl
@[simp] theorem huntSkipped_csum (ch : Chan) (s : State) : (huntSkipped ch s).csum = s.csum := rfl
@[simp] theorem huntSkipped_escRxPending (ch : Chan) (s : State) : (huntSkipped ch s).escRxPending = s.escRxPending := rfl
@[simp] theorem huntSkipped_escTxPending (ch : Chan) (s : State) : (huntSkipped ch s).escTxPending = s.escTxPending := rfl
@[simp] theorem huntSkipped_busDir (ch : Chan) (s : State) : (huntSkipped ch s).busDir = s.busDir := rfl
@[simp] theorem huntSkipped_status (ch : Chan) (s : State) : (huntSkipped ch s).status = s.status := rfl
@[simp] theorem huntSkipped_diagReq (ch : Chan) (s : State) : (huntSkipped ch s).diagReq = s.diagReq := rfl
@[simp] theorem huntSkipped_diagCode (ch : Chan) (s : State) : (huntSkipped ch s).diagCode = s.diagCode := rfl
@[simp] theorem huntSkipped_hostRx (ch : Chan) (s : State) : (huntSkipped ch s).hostRx = s.hostRx := rfl
@[simp] theorem huntSkipped_busRx (ch : Chan) (s : State) : (huntSkipped ch s).busRx = s.busRx := rfl
@[simp] theorem huntSkipped_schedule (ch : Chan) (s : State) : (huntSkipped ch s).schedule = s.schedule := rfl
@[simp] theorem huntSkipped_cycle (ch : Chan) (s : State) : (huntSkipped ch s).cycle = s.cycle := rfl
@[simp] theorem huntSkipped_out (ch : Chan) (s : State) : (huntSkipped ch s).out = s.out := rfl
@[simp] theorem huntSkipped_now (ch : Chan) (s : State) : (huntSkipped ch s).now = s.now := rfl
@[simp] theorem huntSkipped_trace (ch : Chan) (s : State) : (huntSkipped ch s).trace = s.trace := rfl
@[simp] theorem huntSkipped_runs (ch : Chan) (s : State) : (huntSkipped ch s).runs = s.runs := rfl
@[simp] theorem huntSkipped_resetHeld (ch : Chan) (s : State) : (huntSkipped ch s).resetHeld = s.resetHeld := rfl

/-! ### `unescLiteral` -/

@[simp] theorem unescLiteral_state (r : Byte) (s : State) : (unescLiteral r s).state = s.state := rfl
@[simp] theorem unescLiteral_buf (r : Byte) (s : State) : (unescLiteral r s).buf = s.buf := rfl
@[simp] theorem unescLiteral_idx (r : Byte) (s : State) : (unescLiteral r s).idx = s.idx := rfl
@[simp] theorem unescLiteral_csum (r : Byte) (s : State) : (unescLiteral r s).csum = s.csum := rfl
@[simp] theorem unescLiteral_escRxPending (r : Byte) (s : State) : (unescLiteral r s).escRxPending = s.escRxPending := rfl
@[simp] theorem unescLiteral_escTxPending (r : Byte) (s : State) : (unescLiteral r s).escTxPending = s.escTxPending := rfl
@[simp] theorem unescLiteral_busDir (r : Byte) (s : State) : (unescLiteral r s).busDir = s.busDir := rfl
@[simp] theorem unescLiteral_status (r : Byte) (s : State) : (unescLiteral r s).status = s.status := rfl
@[simp] theorem unescLiteral_diagReq (r : Byte) (s : State) : (unescLiteral r s).diagReq = s.diagReq := rfl
@[simp] theorem unescLiteral_diagCode (r : Byte) (s : State) : (unescLiteral r s).diagCode = s.diagCode := rfl
@[simp] theorem unescLiteral_hostRx (r : Byte) (s : State) : (unescLiteral r s).hostRx = s.hostRx := rfl
@[simp] theorem unescLiteral_busRx (r : Byte) (s : State) : (unescLiteral r s).busRx = s.busRx := rfl
@[simp] theorem unescLiteral_schedule (r : Byte) (s : State) : (unescLiteral r s).schedule = s.schedule := rfl
@[simp] theorem unescLiteral_cycle (r : Byte) (s : State) : (unescLiteral r s).cycle = s.cycle := rfl
@[simp] theorem unescLiteral_out (r : Byte) (s : State) : (unescLiteral r s).out = { s.out with unescaped := some r } := rfl
@[simp] theorem unescLiteral_now (r : Byte) (s : State) : (unescLiteral r s).now = s.now := rfl
@[simp] theorem unescLiteral_trace (r : Byte) (s : State) : (unescLiteral r s).trace = s.trace := rfl
@[simp] theorem unescLiteral_runs (r : Byte) (s : State) : (unescLiteral r s).runs = s.runs := rfl
@[simp] theorem unescLiteral_resetHeld (r : Byte) (s : State) : (unescLiteral r s).resetHeld = s.resetHeld := rfl

/-! ### `unescMark` -/

@[simp] theorem unescMark_state (s : State) : (unescMark s).state = s.state := rfl
@[simp] theorem unescMark_buf (s : State) : (unescMark s).buf = s.buf := rfl
@[simp] theorem unescMark_idx (s : State) : (unescMark s).idx = s.idx := rfl
@[simp] theorem unescMark_csum (s : State) : (unescMark s).csum = s.csum := rfl
@[simp] theorem unescMark_escRxPending (s : State) : (unescMark s).escRxPending = true := rfl
@[simp] theorem unescMark_escTxPending (s : State) : (unescMark s).escTxPending = s.escTxPending := rfl
@[simp] theorem unescMark_busDir (s : State) : (unescMark s).busDir = s.busDir := rfl
@[simp] theorem unescMark_status (s : State) : (unescMark s).status = s.status := rfl
@[simp] theorem unescMark_diagReq (s : State) : (unescMark s).diagReq = s.diagReq := rfl
@[simp] theorem unescMark_diagCode (s : State) : (unescMark s).diagCode = s.diagCode := rfl
@[simp] theorem unescMark_hostRx (s : State) : (unescMark s).hostRx = s.hostRx := rfl
@[simp] theorem unescMark_busRx (s : State) : (unescMark s).busRx = s.busRx := rfl
@[simp] theorem unescMark_schedule (s : State) : (unescMark s).schedule = s.schedule := rfl
@[simp] theorem unescMark_cycle (s : State) : (unescMark s).cycle = s.cycle := rfl
@[simp] theorem unescMark_out (s : State) : (unescMark s).out = { s.out with unescaped := none } := rfl
@[simp] theorem unescMark_now (s : State) : (unescMark s).now = s.now := rfl
@[simp] theorem unescMark_trace (s : State) : (unescMark s).trace = s.trace := rfl
@[simp] theorem unescMark_runs (s : State) : (unescMark s).runs = s.runs := rfl
@[simp] theorem unescMark_resetHeld (s : State) : (unescMark s).resetHeld = s.resetHeld := rfl

/-! ### `unescArgument` -/

@[simp] theorem unescArgument_state (r : Byte) (s : State) : (unescArgument r s).state = s.state := rfl
@[simp] theorem unescArgument_buf (r : Byte) (s : State) : (unescArgument r s).buf = s.buf := rfl
@[simp] theorem unescArgument_idx (r : Byte) (s : State) : (unescArgument r s).idx = s.idx := rfl
@[simp] theorem unescArgument_csum (r : Byte) (s : State) : (unescArgument r s).csum = s.csum := rfl
@[simp] theorem unescArgument_escRxPending (r : Byte) (s : State) : (unescArgument r s).escRxPending = false := rfl
@[simp] theorem unescArgument_escTxPending (r : Byte) (s : State) : (unescArgument r s).escTxPending = s.escTxPending := rfl
@[simp] theorem unescArgument_busDir (r : Byte) (s : State) : (unescArgument r s).busDir = s.busDir := rfl
@[simp] theorem unescArgument_status (r : Byte) (s : State) : (unescArgument r s).status = s.status := rfl
@[simp] theorem unescArgument_diagReq (r : Byte) (s : State) : (unescArgument r s).diagReq = s.diagReq := rfl
@[simp] theorem unescArgument_diagCode (r : Byte) (s : State) : (unescArgument r s).diagCode = s.diagCode := rfl
@[simp] theorem unescArgument_hostRx (r : Byte) (s : State) : (unescArgument r s).hostRx = s.hostRx := rfl
@[simp] theorem unescArgument_busRx (r : Byte) (s : State) : (unescArgument r s).busRx = s.busRx := rfl
@[simp] theorem unescArgument_schedule (r : Byte) (s : State) : (unescArgument r s).schedule = s.schedule := rfl
@[simp] theorem unescArgument_cycle (r : Byte) (s : State) : (unescArgument r s).cycle = s.cycle := rfl
@[simp] theorem unescArgument_out (r : Byte) (s : State) : (unescArgument r s).out = { s.out with unescaped := some (r + 1#8) } := rfl
@[simp] theorem unescArgument_now (r : Byte) (s : State) : (unescArgument r s).now = s.now := rfl
@[simp] theorem unescArgument_trace (r : Byte) (s : State) : (unescArgument r s).trace = s.trace := rfl
@[simp] theorem unescArgument_runs (r : Byte) (s : State) : (unescArgument r s).runs = s.runs := rfl
@[simp] theorem unescArgument_resetHeld (r : Byte) (s : State) : (unescArgument r s).resetHeld = s.resetHeld := rfl

/-! ### `csumClear` -/

@[simp] theorem csumClear_state (s : State) : (csumClear s).state = s.state := rfl
@[simp] theorem csumClear_buf (s : State) : (csumClear s).buf = s.buf := rfl
@[simp] theorem csumClear_idx (s : State) : (csumClear s).idx = s.idx := rfl
@[simp] theorem csumClear_csum (s : State) : (csumClear s).csum = 0#8 := rfl
@[simp] theorem csumClear_escRxPending (s : State) : (csumClear s).escRxPending = s.escRxPending := rfl
@[simp] theorem csumClear_escTxPending (s : State) : (csumClear s).escTxPending = s.escTxPending := rfl
@[simp] theorem csumClear_busDir (s : State) : (csumClear s).busDir = s.busDir := rfl
@[simp] theorem csumClear_status (s : State) : (csumClear s).status = s.status := rfl
@[simp] theorem csumClear_diagReq (s : State) : (csumClear s).diagReq = s.diagReq := rfl
@[simp] theorem csumClear_diagCode (s : State) : (csumClear s).diagCode = s.diagCode := rfl
@[simp] theorem csumClear_hostRx (s : State) : (csumClear s).hostRx = s.hostRx := rfl
@[simp] theorem csumClear_busRx (s : State) : (csumClear s).busRx = s.busRx := rfl
@[simp] theorem csumClear_schedule (s : State) : (csumClear s).schedule = s.schedule := rfl
@[simp] theorem csumClear_cycle (s : State) : (csumClear s).cycle = s.cycle := rfl
@[simp] theorem csumClear_out (s : State) : (csumClear s).out = s.out := rfl
@[simp] theorem csumClear_now (s : State) : (csumClear s).now = s.now := rfl
@[simp] theorem csumClear_trace (s : State) : (csumClear s).trace = s.trace := rfl
@[simp] theorem csumClear_runs (s : State) : (csumClear s).runs = s.runs := rfl
@[simp] theorem csumClear_resetHeld (s : State) : (csumClear s).resetHeld = s.resetHeld := rfl

/-! ### `csumAddByte` -/

@[simp] theorem csumAddByte_state (b : Byte) (s : State) : (csumAddByte b s).state = s.state := rfl
@[simp] theorem csumAddByte_buf (b : Byte) (s : State) : (csumAddByte b s).buf = s.buf := rfl
@[simp] theorem csumAddByte_idx (b : Byte) (s : State) : (csumAddByte b s).idx = s.idx := rfl
@[simp] theorem csumAddByte_csum (b : Byte) (s : State) : (csumAddByte b s).csum = s.csum + b := rfl
@[simp] theorem csumAddByte_escRxPending (b : Byte) (s : State) : (csumAddByte b s).escRxPending = s.escRxPending := rfl
@[simp] theorem csumAddByte_escTxPending (b : Byte) (s : State) : (csumAddByte b s).escTxPending = s.escTxPending := rfl
@[simp] theorem csumAddByte_busDir (b : Byte) (s : State) : (csumAddByte b s).busDir = s.busDir := rfl
@[simp] theorem csumAddByte_status (b : Byte) (s : State) : (csumAddByte b s).status = s.status := rfl
@[simp] theorem csumAddByte_diagReq (b : Byte) (s : State) : (csumAddByte b s).diagReq = s.diagReq := rfl
@[simp] theorem csumAddByte_diagCode (b : Byte) (s : State) : (csumAddByte b s).diagCode = s.diagCode := rfl
@[simp] theorem csumAddByte_hostRx (b : Byte) (s : State) : (csumAddByte b s).hostRx = s.hostRx := rfl
@[simp] theorem csumAddByte_busRx (b : Byte) (s : State) : (csumAddByte b s).busRx = s.busRx := rfl
@[simp] theorem csumAddByte_schedule (b : Byte) (s : State) : (csumAddByte b s).schedule = s.schedule := rfl
@[simp] theorem csumAddByte_cycle (b : Byte) (s : State) : (csumAddByte b s).cycle = s.cycle := rfl
@[simp] theorem csumAddByte_out (b : Byte) (s : State) : (csumAddByte b s).out = s.out := rfl
@[simp] theorem csumAddByte_now (b : Byte) (s : State) : (csumAddByte b s).now = s.now := rfl
@[simp] theorem csumAddByte_trace (b : Byte) (s : State) : (csumAddByte b s).trace = s.trace := rfl
@[simp] theorem csumAddByte_runs (b : Byte) (s : State) : (csumAddByte b s).runs = s.runs := rfl
@[simp] theorem csumAddByte_resetHeld (b : Byte) (s : State) : (csumAddByte b s).resetHeld = s.resetHeld := rfl

/-! ### `csumCompare` -/

@[simp] theorem csumCompare_state (b : Byte) (s : State) : (csumCompare b s).state = s.state := rfl
@[simp] theorem csumCompare_buf (b : Byte) (s : State) : (csumCompare b s).buf = s.buf := rfl
@[simp] theorem csumCompare_idx (b : Byte) (s : State) : (csumCompare b s).idx = s.idx := rfl
@[simp] theorem csumCompare_csum (b : Byte) (s : State) : (csumCompare b s).csum = s.csum := rfl
@[simp] theorem csumCompare_escRxPending (b : Byte) (s : State) : (csumCompare b s).escRxPending = s.escRxPending := rfl
@[simp] theorem csumCompare_escTxPending (b : Byte) (s : State) : (csumCompare b s).escTxPending = s.escTxPending := rfl
@[simp] theorem csumCompare_busDir (b : Byte) (s : State) : (csumCompare b s).busDir = s.busDir := rfl
@[simp] theorem csumCompare_status (b : Byte) (s : State) : (csumCompare b s).status = s.status := rfl
@[simp] theorem csumCompare_diagReq (b : Byte) (s : State) : (csumCompare b s).diagReq = s.diagReq := rfl
@[simp] theorem csumCompare_diagCode (b : Byte) (s : State) : (csumCompare b s).diagCode = s.diagCode := rfl
@[simp] theorem csumCompare_hostRx (b : Byte) (s : State) : (csumCompare b s).hostRx = s.hostRx := rfl
@[simp] theorem csumCompare_busRx (b : Byte) (s : State) : (csumCompare b s).busRx = s.busRx := rfl
@[simp] theorem csumCompare_schedule (b : Byte) (s : State) : (csumCompare b s).schedule = s.schedule := rfl
@[simp] theorem csumCompare_cycle (b : Byte) (s : State) : (csumCompare b s).cycle = s.cycle := rfl
@[simp] theorem csumCompare_out (b : Byte) (s : State) : (csumCompare b s).out = { s.out with equal := s.csum == b } := rfl
@[simp] theorem csumCompare_now (b : Byte) (s : State) : (csumCompare b s).now = s.now := rfl
@[simp] theorem csumCompare_trace (b : Byte) (s : State) : (csumCompare b s).trace = s.trace := rfl
@[simp] theorem csumCompare_runs (b : Byte) (s : State) : (csumCompare b s).runs = s.runs := rfl
@[simp] theorem csumCompare_resetHeld (b : Byte) (s : State) : (csumCompare b s).resetHeld = s.resetHeld := rfl

/-! ### `setBusDir` -/

@[simp] theorem setBusDir_state (v : Bool) (s : State) : (setBusDir v s).state = s.state := by
  unfold setBusDir; split <;> simp_all
@[simp] theorem setBusDir_buf (v : Bool) (s : State) : (setBusDir v s).buf = s.buf := by
  unfold setBusDir; split <;> simp_all
@[simp] theorem setBusDir_idx (v : Bool) (s : State) : (setBusDir v s).idx = s.idx := by
  unfold setBusDir; split <;> simp_all
@[simp] theorem setBusDir_csum (v : Bool) (s : State) : (setBusDir v s).csum = s.csum := by
  unfold setBusDir; split <;> simp_all
@[simp] theorem setBusDir_escRxPending (v : Bool) (s : State) : (setBusDir v s).escRxPending = s.escRxPending := by
  unfold setBusDir; split <;> simp_all
@[simp] theorem setBusDir_escTxPending (v : Bool) (s : State) : (setBusDir v s).escTxPending = s.escTxPending := by
  unfold setBusDir; split <;> simp_all
@[simp] theorem setBusDir_busDir (v : Bool) (s : State) : (setBusDir v s).busDir = v := by
  unfold setBusDir; split <;> simp_all
@[simp] theorem setBusDir_status (v : Bool) (s : State) : (setBusDir v s).status = s.status := by
  unfold setBusDir; split <;> simp_all
@[simp] theorem setBusDir_diagReq (v : Bool) (s : State) : (setBusDir v s).diagReq = s.diagReq := by
  unfold setBusDir; split <;> simp_all
@[simp] theorem setBusDir_diagCode (v : Bool) (s : State) : (setBusDir v s).diagCode = s.diagCode := by
  unfold setBusDir; split <;> simp_all
@[simp] theorem setBusDir_hostRx (v : Bool) (s : State) : (setBusDir v s).hostRx = s.hostRx := by
  unfold setBusDir; split <;> simp_all
@[simp] theorem setBusDir_busRx (v : Bool) (s : State) : (setBusDir v s).busRx = s.busRx := by
  unfold setBusDir; split <;> simp_all
@[simp] theorem setBusDir_schedule (v : Bool) (s : State) : (setBusDir v s).schedule = s.schedule := by
  unfold setBusDir; split <;> simp_all
@[simp] theorem setBusDir_cycle (v : Bool) (s : State) : (setBusDir v s).cycle = s.cycle := by
  unfold setBusDir; split <;> simp_all
@[simp] theorem setBusDir_out (v : Bool) (s : State) : (setBusDir v s).out = s.out := by
  unfold setBusDir; split <;> simp_all
@[simp] theorem setBusDir_now (v : Bool) (s : State) : (setBusDir v s).now = s.now ++ if s.busDir = v then [] else [.dir v] := by
  unfold setBusDir; split <;> simp_all
@[simp] theorem setBusDir_trace (v : Bool) (s : State) : (setBusDir v s).trace = s.trace := by
  unfold setBusDir; split <;> simp_all
@[simp] theorem setBusDir_runs (v : Bool) (s : State) : (setBusDir v s).runs = s.runs := by
  unfold setBusDir; split <;> simp_all
@[simp] theorem setBusDir_resetHeld (v : Bool) (s : State) : (setBusDir v s).resetHeld = s.resetHeld := by
  unfold setBusDir; split <;> simp_all

/-! ### `setStatus` -/

@[simp] theorem setStatus_state (v : Bool) (s : State) : (setStatus v s).state = s.state := by
  unfold setStatus; split <;> simp_all
@[simp] theorem setStatus_buf (v : Bool) (s : State) : (setStatus v s).buf = s.buf := by
  unfold setStatus; split <;> simp_all
@[simp] theorem setStatus_idx (v : Bool) (s : State) : (setStatus v s).idx = s.idx := by
  unfold setStatus; split <;> simp_all
@[simp] theorem setStatus_csum (v : Bool) (s : State) : (setStatus v s).csum = s.csum := by
  unfold setStatus; split <;> simp_all
@[simp] theorem setStatus_escRxPending (v : Bool) (s : State) : (setStatus v s).escRxPending = s.escRxPending := by
  unfold setStatus; split <;> simp_all
@[simp] theorem setStatus_escTxPending (v : Bool) (s : State) : (setStatus v s).escTxPending = s.escTxPending := by
  unfold setStatus; split <;> simp_all
@[simp] theorem setStatus_busDir (v : Bool) (s : State) : (setStatus v s).busDir = s.busDir := by
  unfold setStatus; split <;> simp_all
@[simp] theorem setStatus_status (v : Bool) (s : State) : (setStatus v s).status = v := by
  unfold setStatus; split <;> simp_all
@[simp] theorem setStatus_diagReq (v : Bool) (s : State) : (setStatus v s).diagReq = s.diagReq := by
  unfold setStatus; split <;> simp_all
@[simp] theorem setStatus_diagCode (v : Bool) (s : State) : (setStatus v s).diagCode = s.diagCode := by
  unfold setStatus; split <;> simp_all
@[simp] theorem setStatus_hostRx (v : Bool) (s : State) : (setStatus v s).hostRx = s.hostRx := by
  unfold setStatus; split <;> simp_all
@[simp] theorem setStatus_busRx (v : Bool) (s : State) : (setStatus v s).busRx = s.busRx := by
  unfold setStatus; split <;> simp_all
@[simp] theorem setStatus_schedule (v : Bool) (s : State) : (setStatus v s).schedule = s.schedule := by
  unfold setStatus; split <;> simp_all
@[simp] theorem setStatus_cycle (v : Bool) (s : State) : (setStatus v s).cycle = s.cycle := by
  unfold setStatus; split <;> simp_all
@[simp] theorem setStatus_out (v : Bool) (s : State) : (setStatus v s).out = s.out := by
  unfold setStatus; split <;> simp_all
@[simp] theorem setStatus_now (v : Bool) (s : State) : (setStatus v s).now = s.now ++ if s.status = v then [] else [.status v] := by
  unfold setStatus; split <;> simp_all
@[simp] theorem setStatus_trace (v : Bool) (s : State) : (setStatus v s).trace = s.trace := by
  unfold setStatus; split <;> simp_all
@[simp] theorem setStatus_runs (v : Bool) (s : State) : (setStatus v s).runs = s.runs := by
  unfold setStatus; split <;> simp_all
@[simp] theorem setStatus_resetHeld (v : Bool) (s : State) : (setStatus v s).resetHeld = s.resetHeld := by
  unfold setStatus; split <;> simp_all

/-! ### `endCycle` -/

@[simp] theorem endCycle_state (s : State) : (endCycle s).state = s.state := rfl
@[simp] theorem endCycle_buf (s : State) : (endCycle s).buf = s.buf := rfl
@[simp] theorem endCycle_idx (s : State) : (endCycle s).idx = s.idx := rfl
@[simp] theorem endCycle_csum (s : State) : (endCycle s).csum = s.csum := rfl
@[simp] theorem endCycle_escRxPending (s : State) : (endCycle s).escRxPending = s.escRxPending := rfl
@[simp] theorem endCycle_escTxPending (s : State) : (endCycle s).escTxPending = s.escTxPending := rfl
@[simp] theorem endCycle_busDir (s : State) : (endCycle s).busDir = s.busDir := rfl
@[simp] theorem endCycle_status (s : State) : (endCycle s).status = s.status := rfl
@[simp] theorem endCycle_diagReq (s : State) : (endCycle s).diagReq = s.diagReq := rfl
@[simp] theorem endCycle_diagCode (s : State) : (endCycle s).diagCode = s.diagCode := rfl
@[simp] theorem endCycle_hostRx (s : State) : (endCycle s).hostRx = s.hostRx := rfl
@[simp] theorem endCycle_busRx (s : State) : (endCycle s).busRx = s.busRx := rfl
@[simp] theorem endCycle_schedule (s : State) : (endCycle s).schedule = s.schedule.tail := rfl
@[simp] theorem endCycle_cycle (s : State) : (endCycle s).cycle = s.cycle + 1 := rfl
@[simp] theorem endCycle_out (s : State) : (endCycle s).out = s.out := rfl
@[simp] theorem endCycle_now (s : State) : (endCycle s).now = [] := rfl
@[simp] theorem endCycle_trace (s : State) : (endCycle s).trace = s.joined := rfl
@[simp] theorem endCycle_runs (s : State) : (endCycle s).runs = s.runs := rfl
@[simp] theorem endCycle_resetHeld (s : State) : (endCycle s).resetHeld = false := rfl

/-! ### `endReset` -/

@[simp] theorem endReset_state (s : State) : (endReset s).state = s.state := rfl
@[simp] theorem endReset_buf (s : State) : (endReset s).buf = s.buf := rfl
@[simp] theorem endReset_idx (s : State) : (endReset s).idx = s.idx := rfl
@[simp] theorem endReset_csum (s : State) : (endReset s).csum = s.csum := rfl
@[simp] theorem endReset_escRxPending (s : State) : (endReset s).escRxPending = s.escRxPending := rfl
@[simp] theorem endReset_escTxPending (s : State) : (endReset s).escTxPending = s.escTxPending := rfl
@[simp] theorem endReset_busDir (s : State) : (endReset s).busDir = s.busDir := rfl
@[simp] theorem endReset_status (s : State) : (endReset s).status = s.status := rfl
@[simp] theorem endReset_diagReq (s : State) : (endReset s).diagReq = s.diagReq := rfl
@[simp] theorem endReset_diagCode (s : State) : (endReset s).diagCode = s.diagCode := rfl
@[simp] theorem endReset_hostRx (s : State) : (endReset s).hostRx = s.hostRx := rfl
@[simp] theorem endReset_busRx (s : State) : (endReset s).busRx = s.busRx := rfl
@[simp] theorem endReset_schedule (s : State) : (endReset s).schedule = s.schedule.tail := rfl
@[simp] theorem endReset_cycle (s : State) : (endReset s).cycle = s.cycle + 1 := rfl
@[simp] theorem endReset_out (s : State) : (endReset s).out = s.out := rfl
@[simp] theorem endReset_now (s : State) : (endReset s).now = [] := rfl
@[simp] theorem endReset_trace (s : State) : (endReset s).trace = [] := rfl
@[simp] theorem endReset_runs (s : State) :
    (endReset s).runs = if s.resetHeld = true ∧ s.joined = [] then s.runs else s.runs ++ [s.joined] := rfl
@[simp] theorem endReset_resetHeld (s : State) : (endReset s).resetHeld = true := rfl

/-! ### `joined` -/

@[simp] theorem joined_of_no_events {s : State} (h : s.now = []) : s.joined = s.trace := by
  simp [State.joined, h]

@[simp] theorem joined_flatten (s : State) : s.joined.flatten = s.trace.flatten ++ s.now := by
  unfold State.joined
  split <;> simp_all

/-! ### `resetBlock` -/

@[simp] theorem resetBlock_state (s : State) : (resetBlock s).state = .startup := by
  simp [resetBlock, reportingState]
@[simp] theorem resetBlock_buf (s : State) : (resetBlock s).buf = s.buf := by
  simp [resetBlock]
@[simp] theorem resetBlock_idx (s : State) : (resetBlock s).idx = 0#9 := by
  simp [resetBlock]
@[simp] theorem resetBlock_csum (s : State) : (resetBlock s).csum = 0#8 := by
  simp [resetBlock]
@[simp] theorem resetBlock_escRxPending (s : State) : (resetBlock s).escRxPending = false := by
  simp [resetBlock]
@[simp] theorem resetBlock_escTxPending (s : State) : (resetBlock s).escTxPending = false := by
  simp [resetBlock]
@[simp] theorem resetBlock_busDir (s : State) : (resetBlock s).busDir = false := by
  simp [resetBlock]
@[simp] theorem resetBlock_status (s : State) : (resetBlock s).status = false := by
  simp [resetBlock]
@[simp] theorem resetBlock_diagReq (s : State) : (resetBlock s).diagReq = true := by
  simp [resetBlock]
@[simp] theorem resetBlock_diagCode (s : State) : (resetBlock s).diagCode = 1#4 := by
  simp [resetBlock, Diag.code]
@[simp] theorem resetBlock_hostRx (s : State) : (resetBlock s).hostRx = s.hostRx := by
  simp [resetBlock]
@[simp] theorem resetBlock_busRx (s : State) : (resetBlock s).busRx = s.busRx := by
  simp [resetBlock]
@[simp] theorem resetBlock_schedule (s : State) : (resetBlock s).schedule = s.schedule := by
  simp [resetBlock]
@[simp] theorem resetBlock_cycle (s : State) : (resetBlock s).cycle = s.cycle := by
  simp [resetBlock]
@[simp] theorem resetBlock_out (s : State) : (resetBlock s).out = s.out := by
  simp [resetBlock]
@[simp] theorem resetBlock_now (s : State) : (resetBlock s).now = s.now ++ (if s.busDir = false then [] else [.dir false]) ++ if s.status = false then [] else [.status false] := by
  simp [resetBlock]
@[simp] theorem resetBlock_trace (s : State) : (resetBlock s).trace = s.trace := by
  simp [resetBlock]
@[simp] theorem resetBlock_runs (s : State) : (resetBlock s).runs = s.runs := by
  simp [resetBlock]
@[simp] theorem resetBlock_resetHeld (s : State) : (resetBlock s).resetHeld = s.resetHeld := by
  simp [resetBlock]

/-! ### Reading a cell, and the input levels, after an update -/

@[simp] theorem emit_cell (s : State) (e : Event) (a : Nat) : (s.emit e).cell a = s.cell a :=
  State.cell_of_buf (by simp) a
@[simp] theorem emit_levels (s : State) (e : Event) : (s.emit e).levels = s.levels :=
  State.levels_of_schedule (by simp) (by simp)
@[simp] theorem startReport_cell (d : Diag) (s : State) (a : Nat) : (startReport d s).cell a = s.cell a :=
  State.cell_of_buf (by simp) a
@[simp] theorem startReport_levels (d : Diag) (s : State) : (startReport d s).levels = s.levels :=
  State.levels_of_schedule (by simp) (by simp)
@[simp] theorem huntFound_cell (ch : Chan) (s : State) (a : Nat) : (huntFound ch s).cell a = s.cell a :=
  State.cell_of_buf (by simp) a
@[simp] theorem huntFound_levels (ch : Chan) (s : State) : (huntFound ch s).levels = s.levels :=
  State.levels_of_schedule (by simp) (by simp)
@[simp] theorem huntSkipped_cell (ch : Chan) (s : State) (a : Nat) : (huntSkipped ch s).cell a = s.cell a :=
  State.cell_of_buf (by simp) a
@[simp] theorem huntSkipped_levels (ch : Chan) (s : State) : (huntSkipped ch s).levels = s.levels :=
  State.levels_of_schedule (by simp) (by simp)
@[simp] theorem unescLiteral_cell (r : Byte) (s : State) (a : Nat) : (unescLiteral r s).cell a = s.cell a :=
  State.cell_of_buf (by simp) a
@[simp] theorem unescLiteral_levels (r : Byte) (s : State) : (unescLiteral r s).levels = s.levels :=
  State.levels_of_schedule (by simp) (by simp)
@[simp] theorem unescMark_cell (s : State) (a : Nat) : (unescMark s).cell a = s.cell a :=
  State.cell_of_buf (by simp) a
@[simp] theorem unescMark_levels (s : State) : (unescMark s).levels = s.levels :=
  State.levels_of_schedule (by simp) (by simp)
@[simp] theorem unescArgument_cell (r : Byte) (s : State) (a : Nat) : (unescArgument r s).cell a = s.cell a :=
  State.cell_of_buf (by simp) a
@[simp] theorem unescArgument_levels (r : Byte) (s : State) : (unescArgument r s).levels = s.levels :=
  State.levels_of_schedule (by simp) (by simp)
@[simp] theorem csumClear_cell (s : State) (a : Nat) : (csumClear s).cell a = s.cell a :=
  State.cell_of_buf (by simp) a
@[simp] theorem csumClear_levels (s : State) : (csumClear s).levels = s.levels :=
  State.levels_of_schedule (by simp) (by simp)
@[simp] theorem csumAddByte_cell (b : Byte) (s : State) (a : Nat) : (csumAddByte b s).cell a = s.cell a :=
  State.cell_of_buf (by simp) a
@[simp] theorem csumAddByte_levels (b : Byte) (s : State) : (csumAddByte b s).levels = s.levels :=
  State.levels_of_schedule (by simp) (by simp)
@[simp] theorem csumCompare_cell (b : Byte) (s : State) (a : Nat) : (csumCompare b s).cell a = s.cell a :=
  State.cell_of_buf (by simp) a
@[simp] theorem csumCompare_levels (b : Byte) (s : State) : (csumCompare b s).levels = s.levels :=
  State.levels_of_schedule (by simp) (by simp)
@[simp] theorem setBusDir_cell (v : Bool) (s : State) (a : Nat) : (setBusDir v s).cell a = s.cell a :=
  State.cell_of_buf (by simp) a
@[simp] theorem setBusDir_levels (v : Bool) (s : State) : (setBusDir v s).levels = s.levels :=
  State.levels_of_schedule (by simp) (by simp)
@[simp] theorem setStatus_cell (v : Bool) (s : State) (a : Nat) : (setStatus v s).cell a = s.cell a :=
  State.cell_of_buf (by simp) a
@[simp] theorem setStatus_levels (v : Bool) (s : State) : (setStatus v s).levels = s.levels :=
  State.levels_of_schedule (by simp) (by simp)
@[simp] theorem endCycle_cell (s : State) (a : Nat) : (endCycle s).cell a = s.cell a :=
  State.cell_of_buf (by simp) a
@[simp] theorem endReset_cell (s : State) (a : Nat) : (endReset s).cell a = s.cell a :=
  State.cell_of_buf (by simp) a
@[simp] theorem resetBlock_cell (s : State) (a : Nat) : (resetBlock s).cell a = s.cell a :=
  State.cell_of_buf (by simp) a
@[simp] theorem resetBlock_levels (s : State) : (resetBlock s).levels = s.levels :=
  State.levels_of_schedule (by simp) (by simp)

/-- The operation fetched is the step of the state the register holds (R12, R72). -/
@[simp] theorem fetchInstr_eq (s : State) : fetchInstr s = stepInstr s.state := by
  simp [fetchInstr, decodeFsm]

end Sys2Proof.Machine
end

