-- ==== Sys2Proof/Laws/Ops.lean ====
section
/-! SUPPORT. One lemma for each shared operation that says once everything it can do. -/

namespace Sys2Proof.Machine

/-- The state after `Recv(ch)` took a byte: the stream's rest, and the event. -/
def afterRecv (ch : Chan) (r : Byte) (q : List Byte) (s : State) : State :=
  match ch with
  | .host => State.emit { s with hostRx := q } (.hrx r)
  | .bus => State.emit { s with busRx := q } (.brx r)

/-- `Recv` fires exactly when a byte is presented, and takes the first one. -/
theorem recv_eq (ch : Chan) (s : State) :
    recv ch s =
      match s.rxValid ch, s.rxQueue ch with
      | true, r :: q => some (r, afterRecv ch r q s)
      | _, _ => none := by
  cases ch <;> unfold recv State.rxValid State.rxQueue <;> simp only []
  · cases s.levels.hostRxValid <;> cases s.hostRx <;> rfl
  · cases s.levels.busRxValid <;> cases s.busRx <;> rfl

theorem recv_some {ch : Chan} {s t : State} {r : Byte} (h : recv ch s = some (r, t)) :
    ∃ q, s.rxValid ch = true ∧ s.rxQueue ch = r :: q ∧ t = afterRecv ch r q s := by
  rw [recv_eq] at h
  split at h
  · rename_i r' q h1 h2
    simp only [Option.some.injEq, Prod.mk.injEq] at h
    obtain ⟨rfl, rfl⟩ := h
    exact ⟨q, h1, h2, rfl⟩
  · cases h

/-- `Send` fires exactly when the environment takes a byte, and adds one event. -/
theorem send_some {ch : Chan} {v : Byte} {s t : State} (h : send ch v s = some t) :
    s.txReady ch = true ∧ t = s.emit (txEvent ch v) := by
  unfold send at h
  split at h
  · exact ⟨‹_›, (Option.some.inj h).symm⟩
  · cases h

/-- `Flush` fires exactly when the stream is idle, and adds one event. -/
theorem flush_some {ch : Chan} {s t : State} (h : flush ch s = some t) :
    s.txIdle ch = true ∧ t = s.emit (flushEvent ch) := by
  unfold flush at h
  split at h
  · exact ⟨‹_›, (Option.some.inj h).symm⟩
  · cases h

/-- A delivered report (R178). -/
theorem deliverReport_done {d : Diag} {s : State} (h : s.levels.diagDone = true) :
    deliverReport d s =
      { s with diagReq := false, state := afterReport d, idx := if d = .busCsum then 0 else s.idx,
               now := s.now ++ [.diag d.code] } := by
  simp [deliverReport, h, State.emit]

/-- A report not yet finished (R7, R26). -/
theorem deliverReport_waiting {d : Diag} {s : State} (h : s.levels.diagDone = false) :
    deliverReport d s = s := by
  simp [deliverReport, h]

/-- One beat of the escaper (R85): it fires exactly when the environment takes a byte. -/
theorem escapeBeat_eq (ch : Chan) (v : Byte) (s : State) :
    escapeBeat ch v s =
      if s.txReady ch then
        some { s.emit (txEvent ch (escaperByte s.escTxPending v)) with
          escTxPending := !s.escTxPending && isReserved v
          out := { s.out with advance := s.escTxPending || !isReserved v } }
      else none := by
  unfold escapeBeat escArgumentBeat escMarkBeat escPassBeat send escaperByte
  by_cases hr : s.txReady ch = true <;> cases hp : s.escTxPending <;> cases hv : isReserved v <;>
    simp [hr, hp, State.emit]

/-- One beat of the unescaper (R94). -/
theorem unescapeBeat_eq (r : Byte) (s : State) :
    unescapeBeat r s =
      { s with
        escRxPending := !s.escRxPending && r == Config.esc
        out := { s.out with unescaped :=
          if s.escRxPending then some (r + 1) else if r = Config.esc then none else some r } } := by
  unfold unescapeBeat unescArgument unescMark unescLiteral
  cases hp : s.escRxPending <;> by_cases hr : r = Config.esc <;> simp [hr]

theorem foldl_csumAdd_cell (s : State) (l : List Nat) :
    ∀ t : State, l.foldl (fun t i => csumAddByte (s.cell i) t) t =
      { t with csum := t.csum + BitVec.ofNat 8 ((l.map fun i => (s.cell i).toNat).sum) } := by
  induction l with
  | nil => intro t; simp
  | cons i l ih =>
    intro t
    rw [List.foldl_cons, ih]
    simp only [csumAddByte, List.map_cons, List.sum_cons, BitVec.ofNat_add, BitVec.ofNat_toNat,
      BitVec.setWidth_eq, BitVec.add_assoc]

/-- The checksum part of a validate step (R14, R109, R111): `csum` holds the checksum of `buf[0..L]`, and `equal`
says whether it is the trailing byte; nothing else changes. -/
theorem checkFrame_eq (s : State) :
    checkFrame s =
      { s with
        csum := checksum (s.cells (s.length.toNat + 1))
        out := { s.out with
          equal := checksum (s.cells (s.length.toNat + 1)) == s.cell (s.length.toNat + 1) } } := by
  unfold checkFrame
  simp only [foldl_csumAdd_cell]
  simp [csumCompare, csumClear, checksum, State.cells, List.map_map, Function.comp_def]

/-- What a step can answer: reset, or the operation the state selects. -/
theorem step_cases {s t : State} (h : step s = .next t) :
    (s.levels.rst = true ∧ t = endReset (resetBlock s)) ∨
    (s.levels.rst = false ∧ ∃ u, exec (stepInstr s.state) s = .next u ∧ t = endCycle u) := by
  unfold step at h
  cases hr : s.levels.rst with
  | true => rw [hr] at h; simp only [if_true] at h; cases h; exact .inl ⟨rfl, rfl⟩
  | false =>
    rw [hr] at h
    simp only [Bool.false_eq_true, if_false, fetchInstr_eq] at h
    cases he : exec (stepInstr s.state) s with
    | next u => rw [he] at h; cases h; exact .inr ⟨rfl, u, rfl, rfl⟩
    | fault r => rw [he] at h; cases h
    | refused r => rw [he] at h; cases h

end Sys2Proof.Machine
end

