-- ==== Sys2Proof/Laws/PerInstr.lean ====
section
/-! SUPPORT. Statements made for every operation, one lemma per constructor: the host's case split names them. -/

namespace Sys2Proof.Laws.EncodeLength

open Sys2Proof

/-- An operation that is no function of a whole sequence (R89, R99, R105) takes at most one byte (R65, R72, R75). -/
def Statement (i : Instr) : Prop :=
  (∃ a, i = .unescBatch a ∨ i = .escBatch a ∨ i = .csumRange a) ∨ (encode i).length ≤ 1

theorem huntSync (ch : Chan) : Statement (.huntSync ch) := .inr (Nat.le_refl 1)
theorem huntSkip (ch : Chan) (r : Byte) : Statement (.huntSkip ch r) := .inr (Nat.le_refl 1)
theorem unescPfx : Statement .unescPfx := .inr (Nat.le_refl 1)
theorem unescLit (r : Byte) : Statement (.unescLit r) := .inr (Nat.le_refl 1)
theorem unescArg (c : Byte) : Statement (.unescArg c) := .inr (Nat.le_refl 1)
theorem unescBatch (raw : List Byte) : Statement (.unescBatch raw) := .inl ⟨raw, .inl rfl⟩
theorem escPfxD0 (ch : Chan) : Statement (.escPfxD0 ch) := .inr (Nat.le_refl 1)
theorem escPfxE0 (ch : Chan) : Statement (.escPfxE0 ch) := .inr (Nat.le_refl 1)
theorem escPass (ch : Chan) (v : Byte) : Statement (.escPass ch v) := .inr (Nat.le_refl 1)
theorem escArg (ch : Chan) (v : Byte) : Statement (.escArg ch v) := .inr (Nat.le_refl 1)
theorem escBatch (logical : List Byte) : Statement (.escBatch logical) := .inl ⟨logical, .inr (.inl rfl)⟩
theorem csumClr : Statement .csumClr := .inr (Nat.zero_le 1)
theorem csumAdd (din : Byte) : Statement (.csumAdd din) := .inr (Nat.le_refl 1)
theorem csumCmp (cmp : Byte) : Statement (.csumCmp cmp) := .inr (Nat.le_refl 1)
theorem csumRange (bytes : List Byte) : Statement (.csumRange bytes) := .inl ⟨bytes, .inr (.inr rfl)⟩
theorem stStartup : Statement .stStartup := .inr (Nat.le_refl 1)
theorem stAwaitHostSync : Statement .stAwaitHostSync := .inr (Nat.le_refl 1)
theorem stReadHost : Statement .stReadHost := .inr (Nat.le_refl 1)
theorem stValidateHost : Statement .stValidateHost := .inr (Nat.le_refl 1)
theorem stDiscard : Statement .stDiscard := .inr (Nat.le_refl 1)
theorem stAbsorb : Statement .stAbsorb := .inr (Nat.le_refl 1)
theorem stTxBusSync : Statement .stTxBusSync := .inr (Nat.le_refl 1)
theorem stTxBusBody : Statement .stTxBusBody := .inr (Nat.le_refl 1)
theorem stTxBusFlush : Statement .stTxBusFlush := .inr (Nat.le_refl 1)
theorem stAwaitBusSync : Statement .stAwaitBusSync := .inr (Nat.le_refl 1)
theorem stReadBus : Statement .stReadBus := .inr (Nat.le_refl 1)
theorem stValidateBus : Statement .stValidateBus := .inr (Nat.le_refl 1)
theorem stReportBusCsum : Statement .stReportBusCsum := .inr (Nat.le_refl 1)
theorem stTxHostSync : Statement .stTxHostSync := .inr (Nat.le_refl 1)
theorem stTxHostBody : Statement .stTxHostBody := .inr (Nat.le_refl 1)
theorem stTxHostFlush : Statement .stTxHostFlush := .inr (Nat.le_refl 1)
theorem dirAcq : Statement .dirAcq := .inr (Nat.zero_le 1)
theorem dirRel : Statement .dirRel := .inr (Nat.zero_le 1)
theorem statOn : Statement .statOn := .inr (Nat.zero_le 1)
theorem statOff : Statement .statOff := .inr (Nat.zero_le 1)
theorem senseNop (busSense : Bool) : Statement (.senseNop busSense) := .inr (Nat.le_refl 1)
theorem diagStartup : Statement .diagStartup := .inr (Nat.le_refl 1)
theorem diagHostCsum : Statement .diagHostCsum := .inr (Nat.le_refl 1)
theorem diagResetAbsorbed : Statement .diagResetAbsorbed := .inr (Nat.le_refl 1)
theorem diagBusCsum : Statement .diagBusCsum := .inr (Nat.le_refl 1)

end Sys2Proof.Laws.EncodeLength
end

