-- ==== Sys2Proof/Laws/Relay.lean ====
section
/-! SUPPORT. The shared procedures of the relay: what each can answer, said once. -/

namespace Sys2Proof.Machine

/-! ### A byte taken -/

section
variable (ch : Chan) (r : Byte) (q : List Byte) (s : State)

@[simp] theorem afterRecv_state : (afterRecv ch r q s).state = s.state := by cases ch <;> rfl
@[simp] theorem afterRecv_buf : (afterRecv ch r q s).buf = s.buf := by cases ch <;> rfl
@[simp] theorem afterRecv_idx : (afterRecv ch r q s).idx = s.idx := by cases ch <;> rfl
@[simp] theorem afterRecv_csum : (afterRecv ch r q s).csum = s.csum := by cases ch <;> rfl
@[simp] theorem afterRecv_escRxPending : (afterRecv ch r q s).escRxPending = s.escRxPending := by
  cases ch <;> rfl
@[simp] theorem afterRecv_escTxPending : (afterRecv ch r q s).escTxPending = s.escTxPending := by
  cases ch <;> rfl
@[simp] theorem afterRecv_busDir : (afterRecv ch r q s).busDir = s.busDir := by cases ch <;> rfl
@[simp] theorem afterRecv_status : (afterRecv ch r q s).status = s.status := by cases ch <;> rfl
@[simp] theorem afterRecv_diagReq : (afterRecv ch r q s).diagReq = s.diagReq := by cases ch <;> rfl
@[simp] theorem afterRecv_diagCode : (afterRecv ch r q s).diagCode = s.diagCode := by cases ch <;> rfl
@[simp] theorem afterRecv_schedule : (afterRecv ch r q s).schedule = s.schedule := by cases ch <;> rfl
@[simp] theorem afterRecv_cycle : (afterRecv ch r q s).cycle = s.cycle := by cases ch <;> rfl
@[simp] theorem afterRecv_out : (afterRecv ch r q s).out = s.out := by cases ch <;> rfl
@[simp] theorem afterRecv_trace : (afterRecv ch r q s).trace = s.trace := by cases ch <;> rfl
@[simp] theorem afterRecv_runs : (afterRecv ch r q s).runs = s.runs := by cases ch <;> rfl
@[simp] theorem afterRecv_resetHeld : (afterRecv ch r q s).resetHeld = s.resetHeld := by cases ch <;> rfl
@[simp] theorem afterRecv_cell (a : Nat) : (afterRecv ch r q s).cell a = s.cell a :=
  State.cell_of_buf (by simp) a
end

/-! ### The procedures -/

/-- What a hunt step does (R117, R131). -/
theorem huntStep_cases (ch : Chan) (s : State) :
    (s.rxValid ch = false ∧ huntStep ch s = s) ∨
    ∃ r q, s.rxValid ch = true ∧ s.rxQueue ch = r :: q ∧
      huntStep ch s =
        if r = Config.sync then huntFound ch (afterRecv ch r q s)
        else huntSkipped ch (afterRecv ch r q s) := by
  unfold huntStep
  cases h : recv ch s with
  | none =>
    rw [recv_eq] at h
    left
    cases hv : s.rxValid ch with
    | false => exact ⟨rfl, rfl⟩
    | true =>
      cases hq : s.rxQueue ch with
      | nil => cases ch <;> simp_all [State.rxValid, State.rxQueue]
      | cons r q => rw [hv, hq] at h; cases h
  | some p =>
    obtain ⟨r, t⟩ := p
    obtain ⟨q, hv, hq, rfl⟩ := recv_some h
    exact .inr ⟨r, q, hv, hq, rfl⟩

/-- What a read step can answer (R118, R132): it waits, or it takes a byte that gives no logical byte, or one that
is stored. -/
theorem readStep_cases {ch : Chan} {next : FsmState} {s t : State} (h : readStep ch next s = .next t) :
    (s.rxValid ch = false ∧ t = s) ∨
    ∃ r q, s.rxValid ch = true ∧ s.rxQueue ch = r :: q ∧
      ((s.escRxPending = false ∧ r = Config.esc ∧ t = unescMark (afterRecv ch r q s)) ∨
       ∃ v, (s.escRxPending = true ∧ v = r + 1#8 ∨
              s.escRxPending = false ∧ r ≠ Config.esc ∧ v = r) ∧
        s.idx.toNat < Config.bufCap ∧
        t = storeLogical v next
          { afterRecv ch r q s with
            escRxPending := false, out := { s.out with unescaped := some v } }) := by
  unfold readStep at h
  cases hr : recv ch s with
  | none =>
    rw [hr] at h
    cases h
    rw [recv_eq] at hr
    left
    cases hv : s.rxValid ch with
    | false => exact ⟨rfl, rfl⟩
    | true =>
      cases hq : s.rxQueue ch with
      | nil => cases ch <;> simp_all [State.rxValid, State.rxQueue]
      | cons r q => rw [hv, hq] at hr; cases hr
  | some p =>
    obtain ⟨r, u⟩ := p
    obtain ⟨q, hv, hq, rfl⟩ := recv_some hr
    rw [hr] at h
    right
    refine ⟨r, q, hv, hq, ?_⟩
    cases hp : s.escRxPending with
    | true =>
      right
      simp only [unescapeBeat, afterRecv_escRxPending, hp, if_true] at h
      simp only [unescArgument_out, State.idxInBuf, unescArgument_idx, afterRecv_idx] at h
      split at h
      · rename_i hi
        cases h
        exact ⟨r + 1#8, .inl ⟨rfl, rfl⟩, by simpa using hi, by simp [unescArgument]⟩
      · cases h
    | false =>
      by_cases hesc : r = Config.esc
      · left
        simp only [unescapeBeat, afterRecv_escRxPending, hp, Bool.false_eq_true, if_false, hesc,
          if_true, unescMark_out] at h
        cases h
        exact ⟨rfl, hesc, by rw [hesc]⟩
      · right
        simp only [unescapeBeat, afterRecv_escRxPending, hp, Bool.false_eq_true, if_false, hesc] at h
        simp only [unescLiteral_out, State.idxInBuf, unescLiteral_idx, afterRecv_idx] at h
        split at h
        · rename_i hi
          cases h
          refine ⟨r, .inr ⟨rfl, hesc, rfl⟩, by simpa using hi, ?_⟩
          congr 1
          have := afterRecv_escRxPending ch r q s
          rw [hp] at this
          simp [unescLiteral, ← this]
        · cases h

/-- What `StoreLogical` writes (R119). -/
theorem storeLogical_eq (v : Byte) (next : FsmState) (s : State) :
    storeLogical v next s =
      { s with
        buf := Memory.write s.idx.toNat v s.buf
        idx := s.idx + 1#9
        state := if (storeByte v s).frameComplete then next else s.state } := by
  unfold storeLogical
  cases (storeByte v s).frameComplete <;> rfl

theorem storeByte_cell (v : Byte) (s : State) (a : Nat) :
    (storeByte v s).cell a = if a = s.idx.toNat then v else s.cell a :=
  State.cell_setCell s s.idx.toNat a v

theorem storeByte_written (v : Byte) (s : State) (a : Nat) :
    (storeByte v s).written a = (decide (a = s.idx.toNat) || s.written a) :=
  State.written_setCell s s.idx.toNat a v

/-- The completion test after a store, in numbers (R119, R120). -/
theorem storeByte_frameComplete {s : State} (h : s.idx.toNat < Config.bufCap) (v : Byte) :
    (storeByte v s).frameComplete =
      (decide (2 ≤ s.idx.toNat + 1) &&
        decide (s.idx.toNat + 1 = ((storeByte v s).cell 1).toNat + 2)) := by
  have h1 : (storeByte v s).idx.toNat = s.idx.toNat + 1 := by
    simp only [storeByte, BitVec.toNat_add, BitVec.toNat_ofNat]
    simp only [Config.bufCap] at h
    omega
  have h2 : (storeByte v s).frameSize.toNat = ((storeByte v s).cell 1).toNat + 2 := by
    have := ((storeByte v s).cell 1).isLt
    simp only [State.frameSize, State.length, zext9, BitVec.toNat_add, BitVec.toNat_setWidth,
      BitVec.toNat_ofNat]
    omega
  have h3 : ((storeByte v s).idx == (storeByte v s).frameSize) =
      decide (s.idx.toNat + 1 = ((storeByte v s).cell 1).toNat + 2) := by
    rw [← h1, ← h2, Bool.eq_iff_iff, beq_iff_eq, decide_eq_true_eq]
    exact ⟨congrArg _, BitVec.eq_of_toNat_eq⟩
  simp only [State.frameComplete, h1, h3]

/-- The end of `SendLogical` once a logical byte is finished (R127). -/
theorem afterBeat_advance {next : FsmState} {s : State} (h : s.out.advance = true) :
    afterBeat next s =
      { s with idx := s.idx + 1#9, state := if s.idx + 1#9 = s.frameSize then next else s.state } := by
  have hf : ({ s with idx := s.idx + 1#9 } : State).frameSize = s.frameSize := rfl
  unfold afterBeat
  simp only [h, if_true, hf]
  by_cases hc : s.idx + 1#9 = s.frameSize <;> simp [hc]

/-- The completion test of `SendLogical`, in numbers (R127). -/
theorem lastByte_iff {s : State} (h : s.idx.toNat < Config.bufCap) :
    s.idx + 1#9 = s.frameSize ↔ s.idx.toNat + 1 = (s.cell 1).toNat + 2 := by
  have := (s.cell 1).isLt
  simp only [Config.bufCap] at h
  rw [← BitVec.toNat_inj]
  simp only [State.frameSize, State.length, zext9, BitVec.toNat_add, BitVec.toNat_setWidth,
    BitVec.toNat_ofNat]
  omega

/-- What a body-transmit step can answer (R127): it waits, or a beat is sent. -/
theorem sendLogical_cases {ch : Chan} {next : FsmState} {s t : State}
    (h : sendLogical ch next s = .next t) :
    s.idx.toNat < Config.bufCap ∧
    ((s.txReady ch = false ∧ t = s) ∨
     (s.txReady ch = true ∧ s.escTxPending = false ∧ isReserved s.current = true ∧
       t = { s.emit (txEvent ch Config.esc) with
             escTxPending := true, out := { s.out with advance := false } }) ∨
     (s.txReady ch = true ∧ (s.escTxPending = true ∨ isReserved s.current = false) ∧
       t = { s.emit (txEvent ch (escaperByte s.escTxPending s.current)) with
             escTxPending := false
             out := { s.out with advance := true }
             idx := s.idx + 1#9
             state := if s.idx + 1#9 = s.frameSize then next else s.state })) := by
  unfold sendLogical at h
  split at h
  · rename_i hi
    refine ⟨by simpa [State.idxInBuf] using hi, ?_⟩
    rw [escapeBeat_eq] at h
    cases hr : s.txReady ch with
    | false => simp only [hr, Bool.false_eq_true, if_false, orBlocked, Option.map_none,
        Option.getD_none] at h; cases h; exact .inl ⟨rfl, rfl⟩
    | true =>
      simp only [hr, if_true, orBlocked, Option.map_some, Option.getD_some] at h
      cases h
      right
      cases hp : s.escTxPending <;> cases hv : isReserved s.current
      · exact .inr ⟨rfl, .inr rfl, by rw [afterBeat_advance (by simp)]; simp [State.emit]; rfl⟩
      · exact .inl ⟨rfl, rfl, rfl, by simp [afterBeat, escaperByte, hv]⟩
      · exact .inr ⟨rfl, .inl rfl, by rw [afterBeat_advance (by simp)]; simp [State.emit]; rfl⟩
      · exact .inr ⟨rfl, .inl rfl, by rw [afterBeat_advance (by simp)]; simp [State.emit]; rfl⟩
  · cases h

/-- What the sync-transmit steps do (R128, R135). -/
theorem sendSync_cases (ch : Chan) (next : FsmState) (s : State) :
    (s.txReady ch = false ∧ sendSync ch next s = s) ∨
    (s.txReady ch = true ∧
      sendSync ch next s = { s.emit (txEvent ch Config.sync) with state := next }) := by
  unfold sendSync send orBlocked
  cases h : s.txReady ch
  · exact .inl ⟨rfl, rfl⟩
  · exact .inr ⟨rfl, rfl⟩

end Sys2Proof.Machine
end

