-- ==== Sys2Proof/Laws/Trace.lean ====
section
/-! SUPPORT. The end of a cycle, a reset cycle or not, adds the events of the step to the history and loses none. -/

namespace Sys2Proof.Machine

theorem history_endCycle (s : State) : (endCycle s).history = s.history ++ s.now := by
  simp [State.history]

theorem history_endReset (s : State) : (endReset s).history = s.history ++ s.now := by
  unfold State.history
  rw [endReset_runs, endReset_trace]
  split
  · rename_i h
    have := joined_flatten s
    rw [h.2] at this
    simp_all
  · simp

end Sys2Proof.Machine
end

