-- ==== Sys2Proof/Tests/Slice0.lean ====
section
/-! SUPPORT. The package's own tests. The expected values are the spec's: the worked examples of its rules and the
vectors of spec/95_test_vectors.md, named at each test; the witnesses at the end meet the hypotheses of the
obligations. -/

namespace Sys2Proof.Tests

open Sys2Proof Sys2Proof.Machine

/-! ### Small states -/

/-- Cells with the given bytes, from address `a` on. -/
def cellsFrom (a : Nat) : List Byte → List Host.Cell
  | [] => []
  | b :: bs => (a, b) :: cellsFrom (a + 1) bs

/-- Input levels that complete no handshake, with reset released. -/
def grantNone : Levels :=
  { rst := false, hostRxValid := false, hostTxReady := false, hostTxIdle := false, busRxValid := false,
    busTxReady := false, busTxIdle := false, busSense := true, diagDone := false }

/-- The block in a state, with a buffer, in a cycle that completes every handshake; the outputs as their windows
have them. -/
def inState (st : FsmState) (buf : List Byte) (idx : Index) : State :=
  { State.reset with
    state := st
    buf := cellsFrom 0 buf
    idx := idx
    busDir := inBusWindow st
    status := inStatusWindow st
    diagReq := (reportOf st).isSome
    diagCode := match reportOf st with | some d => d.code | none => 1#4
    schedule := [grantAll]
    resetHeld := false }

/-- The same cycle with no handshake completed. -/
def denied (s : State) : State := { s with schedule := [grantNone] }

/-- The next state of an outcome, if it is one. -/
def nextOf : Host.Outcome State Fault Refusal → Option State
  | .next t => some t
  | _ => none

/-- What a test reads of the state an operation leaves. -/
def after {α : Type} (i : Instr) (s : State) (f : State → α) : Option α := (nextOf (exec i s)).map f

/-- What a test reads of the state a step leaves. -/
def afterStep {α : Type} (s : State) (f : State → α) : Option α := (nextOf (step s)).map f

/-! ### Ill-formed operations -/

/-- R65: 0xE0 is never skipped. -/
theorem test_wf_huntSkip : Instr.wf (.huntSkip .host 0xE0#8) = false ∧ Instr.wf (.huntSkip .bus 0xD0#8) = true := by
  decide

/-- R65: 0xD0 is no literal. -/
theorem test_wf_unescLit : Instr.wf (.unescLit 0xD0#8) = false ∧ Instr.wf (.unescLit 0xE0#8) = true := by decide

/-- R63: the reserved values are not passed. -/
theorem test_wf_escPass :
    Instr.wf (.escPass .bus 0xD0#8) = false ∧ Instr.wf (.escPass .host 0xE0#8) = false ∧
    Instr.wf (.escPass .bus 0xCF#8) = true := by decide

/-- R85: only a reserved value reaches the second beat. -/
theorem test_wf_escArg :
    Instr.wf (.escArg .bus 0xCF#8) = false ∧ Instr.wf (.escArg .bus 0xE0#8) = true ∧
    Instr.wf (.escArg .host 0xD0#8) = true := by decide

/-- R60, R61: a wrong checksum byte, a wrong count, and the source's frame of S1 as corrected. -/
theorem test_wf_frame :
    Frame.wf ⟨0x01#8, 0x03#8, [0xF1#8, 0xA5#8], 0xA9#8⟩ = false ∧
    Frame.wf ⟨0x01#8, 0x02#8, [0xF1#8, 0xA5#8], 0x99#8⟩ = false ∧
    Frame.wf ⟨0x01#8, 0x03#8, [0xF1#8, 0xA5#8], 0x9A#8⟩ = true ∧
    Frame.make 0x01#8 [0xF1#8, 0xA5#8] = ⟨0x01#8, 0x03#8, [0xF1#8, 0xA5#8], 0x9A#8⟩ := by decide

/-! ### Decoding, each word written out from its row (R65, R63, R72, R75, R166) -/

theorem test_decode_hunt :
    decode (.hunt .host) [0b11100000#8] = .ok (.huntSync .host) [] ∧
    decode (.hunt .bus) [0b11100000#8] = .ok (.huntSync .bus) [] ∧
    decode (.hunt .host) [0b11010000#8] = .ok (.huntSkip .host 0xD0#8) [] ∧
    decode (.hunt .bus) [0x00#8, 0xE0#8] = .ok (.huntSkip .bus 0x00#8) [0xE0#8] := by decide

theorem test_decode_unescaper :
    decode .body [0b11010000#8] = .ok .unescPfx [] ∧
    decode .body [0b11100000#8] = .ok (.unescLit 0xE0#8) [] ∧
    decode .body [0b11001111#8] = .ok (.unescLit 0xCF#8) [] ∧
    decode .arg [0b11010000#8] = .ok (.unescArg 0xD0#8) [] ∧
    decode .arg [0b11011111#8] = .ok (.unescArg 0xDF#8) [] ∧
    decode .unescapeArg [0xD0#8, 0xDF#8] = .ok (.unescBatch [0xD0#8, 0xDF#8]) [] := by decide

theorem test_decode_escaper :
    decode (.tx .bus) [0b11010000#8] = .ok (.escPfxD0 .bus) [] ∧
    decode (.tx .host) [0b11100000#8] = .ok (.escPfxE0 .host) [] ∧
    decode (.tx .bus) [0b11100001#8] = .ok (.escPass .bus 0xE1#8) [] ∧
    decode (.txArg .host) [0b11100000#8] = .ok (.escArg .host 0xE0#8) [] ∧
    decode (.txArg .bus) [0b11010000#8] = .ok (.escArg .bus 0xD0#8) [] ∧
    decode .escapeArg [0xE0#8] = .ok (.escBatch [0xE0#8]) [] := by decide

theorem test_decode_checksum :
    decode .validateStart [] = .ok .csumClr [] ∧
    decode .validateByte [0xA5#8] = .ok (.csumAdd 0xA5#8) [] ∧
    decode .validateEnd [0x9A#8] = .ok (.csumCmp 0x9A#8) [] ∧
    decode .checksumArg [0x01#8, 0x03#8] = .ok (.csumRange [0x01#8, 0x03#8]) [] := by decide

theorem test_decode_states_low :
    decode .fsm [0b00000000#8] = .ok .stStartup [] ∧
    decode .fsm [0b00000001#8] = .ok .stAwaitHostSync [] ∧
    decode .fsm [0b00000010#8] = .ok .stReadHost [] ∧
    decode .fsm [0b00000011#8] = .ok .stValidateHost [] ∧
    decode .fsm [0b00000100#8] = .ok .stDiscard [] ∧
    decode .fsm [0b00000101#8] = .ok .stAbsorb [] ∧
    decode .fsm [0b00000110#8] = .ok .stTxBusSync [] ∧
    decode .fsm [0b00000111#8] = .ok .stTxBusBody [] := by decide

theorem test_decode_states_high :
    decode .fsm [0b00001000#8] = .ok .stTxBusFlush [] ∧
    decode .fsm [0b00001001#8] = .ok .stAwaitBusSync [] ∧
    decode .fsm [0b00001010#8] = .ok .stReadBus [] ∧
    decode .fsm [0b00001011#8] = .ok .stValidateBus [] ∧
    decode .fsm [0b00001100#8] = .ok .stReportBusCsum [] ∧
    decode .fsm [0b00001101#8] = .ok .stTxHostSync [] ∧
    decode .fsm [0b00001110#8] = .ok .stTxHostBody [] ∧
    decode .fsm [0b00001111#8] = .ok .stTxHostFlush [] := by decide

theorem test_decode_arbiter :
    decode .forwardDir [] = .ok .dirAcq [] ∧ decode .busFlushed [] = .ok .dirRel [] ∧
    decode .forwardStatus [] = .ok .statOn [] ∧ decode .hostFlushed [] = .ok .statOff [] ∧
    decode .sense [0b00000000#8] = .ok (.senseNop false) [] ∧
    decode .sense [0b00000001#8] = .ok (.senseNop true) [] := by decide

theorem test_decode_reports :
    decode .diag [0b00000001#8] = .ok .diagStartup [] ∧
    decode .diag [0b00000010#8] = .ok .diagHostCsum [] ∧
    decode .diag [0b00000011#8] = .ok .diagResetAbsorbed [] ∧
    decode .diag [0b00000100#8] = .ok .diagBusCsum [] := by decide

theorem test_decode_rejects :
    decode .diag [0x00#8] = .reject .reservedDiagCode ∧
    decode .diag [0x0F#8] = .reject .reservedDiagCode ∧
    decode .fsm [0x10#8] = .reject .codeTooWide ∧
    decode .body [] = .reject .missingByte ∧
    decode .noByte [0xE0#8] = .reject .noByteTaken := by decide

/-- S1 corrected, and P8's frame `E0 02 FE E0`, in which `node` and `checksum` are escaped: read back from the
wire with noise before and a byte after. -/
theorem test_decodeFrame :
    decodeFrame [0x00#8, 0xD0#8, 0xE0#8, 0x01#8, 0x03#8, 0xF1#8, 0xA5#8, 0x9A#8, 0x77#8] =
      some (⟨0x01#8, 0x03#8, [0xF1#8, 0xA5#8], 0x9A#8⟩, [0x77#8]) ∧
    Frame.wire ⟨0xE0#8, 0x02#8, [0xFE#8], 0xE0#8⟩ =
      [0xE0#8, 0xD0#8, 0xDF#8, 0x02#8, 0xFE#8, 0xD0#8, 0xDF#8] ∧
    decodeFrame [0xE0#8, 0xD0#8, 0xDF#8, 0x02#8, 0xFE#8, 0xD0#8, 0xDF#8] =
      some (⟨0xE0#8, 0x02#8, [0xFE#8], 0xE0#8⟩, []) := by decide

/-! ### The table's words, and where a step meets them -/

theorem test_tableWord :
    decodeTableWord 8 0xE0 = some (.huntSync .host) ∧ decodeTableWord 8 0xD0 = some .unescPfx ∧
    decodeTableWord 8 0x0C = some .stReportBusCsum ∧ decodeTableWord 8 0x42 = some (.huntSkip .host 0x42#8) ∧
    decodeTableWord 0 0 = none := by decide

/-- A word placed after reset is what the very next step runs. -/
theorem test_withFetchWord :
    afterStep (State.reset.withFetchWord 8 0xE0) (fun t => (t.state, t.hostRx, t.trace)) =
      some (.readHost, [], [[.hrx 0xE0#8]]) ∧
    afterStep (State.reset.withFetchWord 8 0xD0) (fun t => (t.state, t.escRxPending, t.trace)) =
      some (.readHost, true, [[.hrx 0xD0#8]]) ∧
    afterStep (State.reset.withFetchWord 8 0x06) (fun t => (t.state, t.trace)) =
      some (.txBusBody, [[.btx 0xE0#8]]) := by decide

/-! ### The sync hunt (R117, R131) -/

theorem test_huntSync :
    after (.huntSync .host) (inState .awaitHostSync [] 5#9) (fun t => (t.state, t.idx)) =
      some (.readHost, 0#9) ∧
    after (.huntSync .bus) (inState .awaitBusSync [] 5#9) (fun t => (t.state, t.idx)) =
      some (.readBus, 0#9) := by decide

/-- 0xD0 is skipped and sets no flag. -/
theorem test_huntSkip :
    after (.huntSkip .bus 0xD0#8) (inState .awaitBusSync [] 5#9)
      (fun t => (t.state, t.idx, t.escRxPending)) = some (.awaitBusSync, 5#9, false) := by decide

/-- R117's example, its last two bytes. -/
theorem test_stAwaitHostSync :
    after .stAwaitHostSync { inState .awaitHostSync [] 7#9 with hostRx := [0xD0#8, 0xE0#8] }
      (fun t => (t.state, t.idx, t.hostRx, t.now)) =
      some (.awaitHostSync, 7#9, [0xE0#8], [.hrx 0xD0#8]) ∧
    after .stAwaitHostSync { inState .awaitHostSync [] 7#9 with hostRx := [0xE0#8] }
      (fun t => (t.state, t.idx, t.hostRx, t.now)) = some (.readHost, 0#9, [], [.hrx 0xE0#8]) := by decide

/-- R131's example, `FF E0`; the host stream is not looked at. -/
theorem test_stAwaitBusSync :
    after .stAwaitBusSync { inState .awaitBusSync [] 7#9 with busRx := [0xFF#8], hostRx := [0xE0#8] }
      (fun t => (t.state, t.busRx, t.hostRx)) = some (.awaitBusSync, [], [0xE0#8]) ∧
    after .stAwaitBusSync { inState .awaitBusSync [] 7#9 with busRx := [0xE0#8] }
      (fun t => (t.state, t.idx, t.now)) = some (.readBus, 0#9, [.brx 0xE0#8]) := by decide

/-! ### The unescaper (R95 to R99; 95_test_vectors.md section 2.2) -/

theorem test_unescLit :
    after (.unescLit 0xE0#8) State.reset (fun t => (t.out.unescaped, t.escRxPending)) =
      some (some 0xE0#8, false) := by decide

theorem test_unescPfx :
    after .unescPfx State.reset (fun t => (t.out.unescaped, t.escRxPending, t.idx)) =
      some (none, true, 0#9) := by decide

/-- 0xFF wraps, 0xD0 starts no new pair. -/
theorem test_unescArg :
    after (.unescArg 0xFF#8) { State.reset with escRxPending := true }
      (fun t => (t.out.unescaped, t.escRxPending)) = some (some 0x00#8, false) ∧
    after (.unescArg 0xD0#8) { State.reset with escRxPending := true }
      (fun t => (t.out.unescaped, t.escRxPending)) = some (some 0xD1#8, false) := by decide

theorem test_unescBatch :
    after (.unescBatch [0x01#8, 0xD0#8, 0xDF#8, 0xD0#8, 0xCF#8, 0xCF#8]) State.reset
      (fun t => (t.out.batch, t.out.batchPending)) = some ([0x01#8, 0xE0#8, 0xD0#8, 0xCF#8], false) ∧
    after (.unescBatch [0xD0#8, 0xD0#8, 0xD0#8]) State.reset
      (fun t => (t.out.batch, t.out.batchPending)) = some ([0xD1#8], true) := by decide

/-! ### The escaper (R86 to R89; 95_test_vectors.md section 2.1) -/

theorem test_escPass :
    after (.escPass .bus 0xA5#8) (inState .txBusBody [] 0#9)
      (fun t => (t.now, t.escTxPending, t.out.advance)) = some ([.btx 0xA5#8], false, true) ∧
    after (.escPass .host 0xA5#8) (denied (inState .txHostBody [] 0#9))
      (fun t => (t.now, t.out.advance)) = some ([], false) := by decide

theorem test_escPfxD0 :
    after (.escPfxD0 .host) (inState .txHostBody [] 0#9)
      (fun t => (t.now, t.escTxPending, t.out.advance)) = some ([.htx 0xD0#8], true, false) := by decide

/-- The marker is 0xD0 for both reserved values. -/
theorem test_escPfxE0 :
    after (.escPfxE0 .bus) (inState .txBusBody [] 0#9)
      (fun t => (t.now, t.escTxPending, t.out.advance)) = some ([.btx 0xD0#8], true, false) := by decide

theorem test_escArg :
    after (.escArg .bus 0xD0#8) { inState .txBusBody [] 0#9 with escTxPending := true }
      (fun t => (t.now, t.escTxPending, t.out.advance)) = some ([.btx 0xCF#8], false, true) ∧
    after (.escArg .host 0xE0#8) { inState .txHostBody [] 0#9 with escTxPending := true }
      (fun t => (t.now, t.escTxPending, t.out.advance)) = some ([.htx 0xDF#8], false, true) := by decide

theorem test_escBatch :
    after (.escBatch [0x01#8, 0xE0#8, 0xD0#8, 0xCF#8]) State.reset (fun t => t.out.batch) =
      some [0x01#8, 0xD0#8, 0xDF#8, 0xD0#8, 0xCF#8, 0xCF#8] := by decide

/-! ### The checksum adder (R105 to R109) -/

theorem test_csumClr :
    after .csumClr { State.reset with csum := 0x9A#8 } (fun t => t.csum) = some 0x00#8 := by decide

/-- R108's example wraps. -/
theorem test_csumAdd :
    after (.csumAdd 0xA5#8) { State.reset with csum := 0xF5#8 } (fun t => t.csum) = some 0x9A#8 := by decide

theorem test_csumCmp :
    after (.csumCmp 0x9A#8) { State.reset with csum := 0x9A#8 } (fun t => t.out.equal) = some true ∧
    after (.csumCmp 0xA9#8) { State.reset with csum := 0x9A#8 } (fun t => t.out.equal) = some false := by decide

/-- R105's example; the register is not written. -/
theorem test_csumRange :
    after (.csumRange [0x01#8, 0x03#8, 0xF1#8, 0xA5#8]) { State.reset with csum := 7#8 }
      (fun t => (t.out.rangeSum, t.csum)) = some (0x9A#8, 7#8) := by decide

/-! ### The arbiter (R150 to R157) -/

theorem test_dirAcq :
    after .dirAcq State.reset (fun t => (t.busDir, t.now)) = some (true, [.dir true]) := by decide

theorem test_dirRel :
    after .dirRel { State.reset with busDir := true } (fun t => (t.busDir, t.now)) =
      some (false, [.dir false]) := by decide

theorem test_statOn :
    after .statOn State.reset (fun t => (t.status, t.now)) = some (true, [.status true]) := by decide

theorem test_statOff :
    after .statOff { State.reset with status := true } (fun t => (t.status, t.now)) =
      some (false, [.status false]) := by decide

theorem test_senseNop : nextOf (exec (.senseNop true) State.reset) = some State.reset := by decide

/-! ### Reports (R166, R177, R178) -/

theorem test_diagStartup :
    after .diagStartup (inState .startup [] 0#9) (fun t => (t.state, t.diagReq, t.diagCode, t.now)) =
      some (.awaitHostSync, false, 1#4, [.diag 1#4]) := by decide

theorem test_diagHostCsum :
    after .diagHostCsum (inState .validateHost [] 2#9) (fun t => (t.state, t.diagReq, t.diagCode)) =
      some (.discard, true, 2#4) ∧
    after .diagHostCsum (inState .discard [] 2#9) (fun t => (t.state, t.diagReq, t.now)) =
      some (.awaitHostSync, false, [.diag 2#4]) := by decide

theorem test_diagResetAbsorbed :
    after .diagResetAbsorbed (inState .validateHost [] 5#9) (fun t => (t.state, t.diagReq, t.diagCode)) =
      some (.absorb, true, 3#4) ∧
    after .diagResetAbsorbed (denied (inState .absorb [] 5#9)) (fun t => (t.state, t.diagReq, t.now)) =
      some (.absorb, true, []) := by decide

theorem test_diagBusCsum :
    after .diagBusCsum (inState .validateBus [] 4#9) (fun t => (t.state, t.diagReq, t.diagCode)) =
      some (.reportBusCsum, true, 4#4) ∧
    after .diagBusCsum (inState .reportBusCsum [] 4#9) (fun t => (t.state, t.diagReq, t.idx, t.now)) =
      some (.txHostSync, false, 0#9, [.diag 4#4]) := by decide

/-! ### The steps of the states -/

/-- R116's example, as one clock cycle. -/
theorem test_stStartup :
    afterStep { State.reset with schedule := [grantAll] } (fun t => (t.state, t.diagReq, t.trace)) =
      some (.awaitHostSync, false, [[.diag 1#4]]) ∧
    afterStep (denied State.reset) (fun t => (t.state, t.diagReq, t.trace)) =
      some (.startup, true, []) := by decide

/-- P1: the checksum byte completes the frame; and a 0xD0 stores nothing (R96). -/
theorem test_stReadHost :
    after .stReadHost { inState .readHost [0x01#8, 0x03#8, 0xF1#8, 0xA5#8] 4#9 with hostRx := [0x9A#8] }
      (fun t => (t.state, t.idx, t.cell 4)) = some (.validateHost, 5#9, 0x9A#8) ∧
    after .stReadHost { inState .readHost [0x01#8] 1#9 with hostRx := [0xD0#8] }
      (fun t => (t.state, t.idx, t.escRxPending)) = some (.readHost, 1#9, true) := by decide

/-- R132's example, its second and its last byte. -/
theorem test_stReadBus :
    after .stReadBus { inState .readBus [0x00#8] 1#9 with busRx := [0x02#8] }
      (fun t => (t.state, t.idx, t.length)) = some (.readBus, 2#9, 0x02#8) ∧
    after .stReadBus { inState .readBus [0x00#8, 0x02#8, 0x01#8] 3#9 with busRx := [0x03#8] }
      (fun t => (t.state, t.idx, t.cell 3)) = some (.validateBus, 4#9, 0x03#8) := by decide

/-- R121's example, and the source's literal 0xA9 (P1b). -/
theorem test_stValidateHost :
    after .stValidateHost (inState .validateHost [0x01#8, 0x03#8, 0xF1#8, 0xA5#8, 0x9A#8] 5#9)
      (fun t => (t.csum, t.state, t.idx, t.now)) =
      some (0x9A#8, .txBusSync, 0#9, [.dir true, .status true]) ∧
    after .stValidateHost (inState .validateHost [0x01#8, 0x03#8, 0xF1#8, 0xA5#8, 0xA9#8] 5#9)
      (fun t => (t.csum, t.state, t.diagReq, t.diagCode, t.busDir)) =
      some (0x9A#8, .discard, true, 2#4, false) := by decide

/-- P3 with the default values of the two OPEN bytes (R6): `FF 03 F0 D9 CB`; with another payload byte the frame is
forwarded. -/
theorem test_resetBroadcast :
    (validateHostWith 0xF0#8 0xD9#8
      (inState .validateHost [0xFF#8, 0x03#8, 0xF0#8, 0xD9#8, 0xCB#8] 5#9)).state = .absorb ∧
    (validateHostWith 0xF0#8 0xD9#8
      (inState .validateHost [0xFF#8, 0x03#8, 0xF0#8, 0xDA#8, 0xCC#8] 5#9)).state = .txBusSync := by decide

/-- R125's example. -/
theorem test_stDiscard :
    after .stDiscard (inState .discard [] 5#9) (fun t => (t.state, t.diagReq, t.now)) =
      some (.awaitHostSync, false, [.diag 2#4]) := by decide

theorem test_stAbsorb :
    after .stAbsorb (inState .absorb [] 5#9) (fun t => (t.state, t.diagReq, t.now)) =
      some (.awaitHostSync, false, [.diag 3#4]) := by decide

theorem test_stTxBusSync :
    after .stTxBusSync (inState .txBusSync [] 0#9) (fun t => (t.state, t.now)) =
      some (.txBusBody, [.btx 0xE0#8]) := by decide

/-- R129's second example, `02 02 E0 E4`: the two beats of E0, of which the first moves no index; then its last
byte. -/
theorem test_stTxBusBody :
    after .stTxBusBody (inState .txBusBody [0x02#8, 0x02#8, 0xE0#8, 0xE4#8] 2#9)
      (fun t => (t.now, t.idx, t.escTxPending)) = some ([.btx 0xD0#8], 2#9, true) ∧
    after .stTxBusBody (inState .txBusBody [0x02#8, 0x02#8, 0xE0#8, 0xE4#8] 3#9)
      (fun t => (t.now, t.idx, t.state)) = some ([.btx 0xE4#8], 4#9, .txBusFlush) := by decide

/-- R130's example, as one clock cycle. -/
theorem test_stTxBusFlush :
    afterStep (inState .txBusFlush [] 4#9) (fun t => (t.state, t.busDir, t.status, t.trace)) =
      some (.awaitBusSync, false, true, [[.bflush, .dir false]]) := by decide

/-- R133's examples. -/
theorem test_stValidateBus :
    after .stValidateBus (inState .validateBus [0x00#8, 0x02#8, 0x01#8, 0x03#8] 4#9)
      (fun t => (t.csum, t.state, t.idx)) = some (0x03#8, .txHostSync, 0#9) ∧
    after .stValidateBus (inState .validateBus [0x00#8, 0x02#8, 0x01#8, 0xFF#8] 4#9)
      (fun t => (t.state, t.diagCode, t.diagReq, t.status)) = some (.reportBusCsum, 4#4, true, true) := by
  decide

theorem test_stReportBusCsum :
    after .stReportBusCsum (inState .reportBusCsum [] 4#9) (fun t => (t.state, t.idx, t.status, t.now)) =
      some (.txHostSync, 0#9, true, [.diag 4#4]) := by decide

/-- R135's example: no `DIR` event. -/
theorem test_stTxHostSync :
    after .stTxHostSync (inState .txHostSync [] 0#9) (fun t => (t.state, t.now)) =
      some (.txHostBody, [.htx 0xE0#8]) := by decide

theorem test_stTxHostBody :
    after .stTxHostBody
      { inState .txHostBody [0xE0#8, 0x02#8, 0xFE#8, 0xE0#8] 3#9 with escTxPending := true }
      (fun t => (t.now, t.idx, t.escTxPending, t.state)) = some ([.htx 0xDF#8], 4#9, false, .txHostFlush) := by
  decide

/-- R137's example, as one clock cycle. -/
theorem test_stTxHostFlush :
    afterStep (inState .txHostFlush [] 4#9) (fun t => (t.state, t.status, t.trace)) =
      some (.awaitHostSync, false, [[.hflush, .status false]]) := by decide

/-- The block in a state, in a cycle with `rst = 1`. -/
def inReset (s : State) : State := { s with schedule := [{ grantAll with rst := true }] }

/-- R190: reset inside the direction window. -/
theorem test_reset :
    afterStep (inReset (inState .txBusBody [] 3#9)) (fun t => (t.state, t.idx, t.diagReq, t.diagCode)) =
      some (.startup, 0#9, true, 1#4) := by decide

/-- R192: one run ends, with the implied events or with none, and another starts; a held reset ends no other run. -/
theorem test_reset_trace :
    afterStep (inReset (inState .txBusBody [] 3#9)) (fun t => (t.runs, t.trace)) =
      some ([[[.dir false, .status false]]], []) ∧
    afterStep (inReset { inState .readHost [] 1#9 with trace := [[.diag 1#4]] }) (fun t => (t.runs, t.trace)) =
      some ([[[.diag 1#4]]], []) ∧
    afterStep (inReset State.reset) (fun t => (t.runs, t.trace)) = some ([], []) := by decide

/-! ### Witnesses: states and operands that meet the hypotheses of the obligations -/

/-- The invariant from its decidable parts. -/
theorem inv_of {s : State}
    (h1 : s.now = [] ∧ Memory.wf s.buf = true ∧ (s.escRxPending = true → isReading s.state = true) ∧
      (s.escTxPending = true → isSendingBody s.state = true) ∧
      (s.escTxPending = true → isReserved s.current = true) ∧
      s.busDir = inBusWindow s.state ∧ s.status = inStatusWindow s.state)
    (h2 : s.diagReq = (reportOf s.state).isSome ∧ (reportOf s.state).all (fun d => s.diagCode == d.code) = true ∧
      (1 ≤ s.diagCode.toNat ∧ s.diagCode.toNat ≤ 4) ∧ s.idx.toNat ≤ 257 ∧
      (s.state = .startup → s.idx.toNat = 0) ∧
      (s.resetHeld = true → s.state = .startup ∧ s.trace = []))
    (h3 : (isReading s.state = true → ∀ a, a < s.idx.toNat → s.written a = true) ∧
      (isReading s.state = true → s.idx.toNat < 2 ∨ s.idx.toNat < s.length.toNat + 2) ∧
      (holdsFrame s.state = true → ∀ a, a < s.length.toNat + 2 → s.written a = true) ∧
      (isAtFrameEnd s.state = true → s.idx.toNat = s.length.toNat + 2) ∧
      (isSendingSync s.state = true → s.idx.toNat = 0) ∧
      (isSendingBody s.state = true → s.idx.toNat < s.length.toNat + 2)) : Inv s where
  no_leftover := h1.1
  buf_wf := h1.2.1
  esc_rx := h1.2.2.1
  esc_tx := h1.2.2.2.1
  esc_tx_byte := h1.2.2.2.2.1
  bus_dir := h1.2.2.2.2.2.1
  status_window := h1.2.2.2.2.2.2
  diag_req := h2.1
  diag_code := by
    intro d hd
    have := h2.2.1
    rw [hd] at this
    simpa using this
  diag_range := h2.2.2.1
  idx_le := h2.2.2.2.1
  startup_idx := h2.2.2.2.2.1
  reset_held := h2.2.2.2.2.2
  reading_written := h3.1
  reading_open := h3.2.1
  frame_written := h3.2.2.1
  frame_end := h3.2.2.2.1
  sync_idx := h3.2.2.2.2.1
  body_idx := h3.2.2.2.2.2

/-- A host frame with a wrong checksum, complete. -/
def badHost : State := inState .validateHost [0x01#8, 0x01#8, 0x00#8] 3#9

/-- A bus frame with a wrong checksum, complete. -/
def badBus : State := inState .validateBus [0x01#8, 0x01#8, 0x00#8] 3#9

/-- The reset-broadcast, complete, whatever its two payload bytes are. -/
def resetHost : State :=
  inState .validateHost
    [0xFF#8, 0x03#8, Config.resetP0, Config.resetP1,
      checksum [0xFF#8, 0x03#8, Config.resetP0, Config.resetP1]] 5#9

theorem badHost_inv : Inv badHost := inv_of (by decide) (by decide) (by decide)
theorem badBus_inv : Inv badBus := inv_of (by decide) (by decide) (by decide)
theorem resetHost_inv : Inv resetHost := inv_of (by decide) (by decide) (by decide)

/-- The reset-broadcast is absorbed, for every value of the OPEN bytes. -/
theorem resetHost_absorbed :
    ∃ t, step resetHost = .next t ∧ t.state = .absorb ∧ t.diagCode = 3#4 := by
  have h : (checkFrame resetHost).out.equal = true := by rw [checkFrame_eq]; exact beq_self_eq_true _
  have hb : isResetBroadcast Config.resetP0 Config.resetP1 (checkFrame resetHost) = true := by
    rw [checkFrame_eq]
    simp only [isResetBroadcast, Bool.and_eq_true]
    exact ⟨⟨⟨rfl, rfl⟩, beq_self_eq_true Config.resetP0⟩, beq_self_eq_true Config.resetP1⟩
  have hv : validateHostWith Config.resetP0 Config.resetP1 resetHost =
      startReport .resetAbsorbed (checkFrame resetHost) := by
    simp only [validateHostWith, h, hb, if_true]
  refine ⟨endCycle (startReport .resetAbsorbed (checkFrame resetHost)), ?_, rfl, rfl⟩
  have hs : step resetHost = finishCycle (execStValidateHost resetHost) := rfl
  rw [hs, execStValidateHost, hv]
  rfl

/-! #### Encodings -/

theorem witness_DecodeOfEncode :
    Instr.wf (.escArg .bus 0xE0#8) = true ∧ Instr.wf (.huntSkip .host 0xDF#8) = true ∧
    Instr.wf (.unescLit 0xE0#8) = true ∧ Instr.wf (.escPass .host 0xFF#8) = true := by decide

theorem witness_EncodeOfDecode :
    decode (.hunt .bus) [0xE0#8, 0x01#8] = .ok (.huntSync .bus) [0x01#8] := by decide

/-- The shortest frame, with a wrong checksum, and the longest. -/
theorem witness_FrameDecodeOfWire :
    Frame.counted ⟨0x05#8, 0x01#8, [], 0x00#8⟩ = true ∧ Config.sync ∉ [0xD0#8, 0x00#8] ∧
    Frame.counted ⟨0xE0#8, 0xFF#8, List.replicate 254 0xE0#8, 0xD0#8⟩ = true :=
  ⟨by decide, by decide, by unfold Frame.counted; rw [List.length_replicate]; rfl⟩

theorem witness_EscapeRoundTrip : (0xDF#8 : Byte) ≠ 0xE0#8 ∧ (0xDF#8 : Byte) ≠ 0xD0#8 := by decide

theorem witness_EscapedSequenceContents :
    escape [0xE0#8] = [] ++ 0xD0#8 :: [0xDF#8] ∧ escape [0x01#8, 0xD0#8] = [0x01#8] ++ 0xD0#8 :: [0xCF#8] := by
  decide

theorem witness_EscapeAndUnescapeAppend :
    (unescape [0xD0#8, 0x05#8]).2 = false ∧ (unescape [0x05#8, 0xD0#8]).2 = true := by decide

theorem witness_ChecksumLaws :
    ([0x01#8, 0x02#8] : List Byte).Perm [0x02#8, 0x01#8] ∧
    (Frame.make 0x01#8 [0xF1#8]).wf = true ∧
    (let f := Frame.make 0x01#8 [0xF1#8]
     let g : Frame := { f with check := 0x00#8 }
     g.length = f.length ∧ g.logical = f.logical.set 3 0x00#8 ∧ g ≠ f) ∧
    (let f := Frame.make 0x01#8 [0xF1#8]
     let g : Frame := { f with node := 0x02#8 }
     g.length = f.length ∧ g.logical = f.logical.set 0 0x02#8 ∧ g ≠ f) := by decide

/-! #### Reset, fetch and the clock cycle -/

theorem witness_ResetCycle :
    (inReset (inState .txBusBody [] 3#9)).levels.rst = true ∧
    (inState .txBusBody [] 3#9).levels.rst = false := by decide

/-- A held reset that cuts a bus frame off. -/
theorem witness_HeldResetEndsOneRun :
    let s := { inState .txBusBody [0xE0#8, 0x00#8] 0#9 with
                schedule := List.replicate 2 { grantAll with rst := true } }
    Inv s ∧ s.resetHeld = false ∧ 1 + 1 ≤ s.schedule.length ∧ ∀ l ∈ s.schedule.take (1 + 1), l.rst = true :=
  ⟨inv_of (by decide) (by decide) (by decide), rfl, by decide, by decide⟩

theorem witness_StepRunsDecodedOperation :
    (inState .reportBusCsum [] 0#9).levels.rst = false ∧
    decode .fsm (fetchWord (inState .reportBusCsum [] 0#9)) = .ok .stReportBusCsum [] := by decide

/-! #### The sub-blocks -/

theorem witness_ChecksumIsSum : ([0xFF#8, 0x02#8] : List Byte).Perm [0x02#8, 0xFF#8] := by decide

theorem witness_EscaperOperations :
    (inState .txBusBody [] 0#9).txReady .bus = true ∧ (inState .txHostBody [] 0#9).txReady .host = true := by
  decide

theorem witness_EscaperOperationsWait :
    (denied (inState .txBusBody [] 0#9)).txReady .bus = false ∧
    (denied (inState .txHostBody [] 0#9)).txReady .host = false ∧
    Instr.escPfxE0 .bus ∈
      [Instr.escPass .bus 0xE0#8, .escPfxD0 .bus, .escPfxE0 .bus, .escArg .bus 0xE0#8] := by decide

theorem witness_UnescapeSteppedIsUnescape : State.reset.escRxPending = false := rfl

/-! #### Reports -/

/-- No report in progress; and another one in progress. -/
theorem witness_ReportStarts :
    (∀ code, ¬ ((inState .readHost [] 0#9).diagReq = true ∧ (inState .readHost [] 0#9).diagCode = code)) ∧
    ¬ (State.reset.diagReq = true ∧ State.reset.diagCode = 2#4) :=
  ⟨fun _ h => Bool.noConfusion h.1, by decide⟩

theorem witness_ReportDelivered :
    ∀ p ∈ [(FsmState.startup, 1#4), (.discard, 2#4), (.absorb, 3#4), (.reportBusCsum, 4#4)],
      (inState p.1 [] 0#9).diagReq = true ∧ (inState p.1 [] 0#9).diagCode = p.2 ∧
      (inState p.1 [] 0#9).levels.diagDone = true ∧
      (denied (inState p.1 [] 0#9)).diagReq = true ∧ (denied (inState p.1 [] 0#9)).diagCode = p.2 ∧
      (denied (inState p.1 [] 0#9)).levels.diagDone = false := by decide

theorem witness_ReportingSteps :
    (Instr.stDiscard, 2#4, FsmState.awaitHostSync) ∈
      [(Instr.stStartup, 1#4, FsmState.awaitHostSync), (.stDiscard, 2#4, .awaitHostSync),
       (.stAbsorb, 3#4, .awaitHostSync), (.stReportBusCsum, 4#4, .txHostSync)] ∧
    (∃ t, step (denied State.reset) = .next t ∧ t.state = .startup) ∧
    ∃ t, step (inReset badHost) = .next t ∧ t.state = .startup :=
  ⟨by decide, ⟨_, rfl, rfl⟩, ⟨_, rfl, rfl⟩⟩

theorem witness_ReportEntryIsPrecise_hostCsum :
    Inv badHost ∧ badHost.levels.rst = false ∧ reportOf badHost.state = none ∧
    ∃ t, step badHost = .next t ∧ reportOf t.state = some .hostCsum :=
  ⟨badHost_inv, rfl, rfl, _, rfl, rfl⟩

theorem witness_ReportEntryIsPrecise_resetAbsorbed :
    Inv resetHost ∧ resetHost.levels.rst = false ∧ reportOf resetHost.state = none ∧
    ∃ t, step resetHost = .next t ∧ reportOf t.state = some .resetAbsorbed := by
  obtain ⟨t, h1, h2, -⟩ := resetHost_absorbed
  exact ⟨resetHost_inv, rfl, rfl, t, h1, by rw [h2]; rfl⟩

theorem witness_ReportEntryIsPrecise_busCsum :
    Inv badBus ∧ badBus.levels.rst = false ∧ reportOf badBus.state = none ∧
    ∃ t, step badBus = .next t ∧ reportOf t.state = some .busCsum :=
  ⟨badBus_inv, rfl, rfl, _, rfl, rfl⟩

/-! #### The steps of the relay -/

/-- A state that reads `r` next, on both channels. -/
def offered (st : FsmState) (buf : List Byte) (idx : Index) (pending : Bool) (r : Byte) : State :=
  { inState st buf idx with escRxPending := pending, hostRx := [r], busRx := [r] }

theorem witness_HuntSteps :
    (offered .awaitHostSync [] 0#9 false 0xE0#8).levels.hostRxValid = true ∧
    (offered .awaitHostSync [] 0#9 false 0xE0#8).hostRx = [0xE0#8] ∧
    (offered .awaitBusSync [] 0#9 false 0xDF#8).levels.busRxValid = true ∧
    (offered .awaitBusSync [] 0#9 false 0xDF#8).busRx = [0xDF#8] ∧
    (denied (offered .awaitHostSync [] 0#9 false 0xE0#8)).rxValid .host = false ∧
    (inState .awaitBusSync [] 0#9).rxValid .bus = false := by decide

/-- A raw byte `r` that gives the logical byte `v` to be stored at `idx`: the hypotheses of `ReadStepsStore`. -/
def storesNext (ch : Chan) (idx : Index) (pending : Bool) (r v : Byte) : Prop :=
  let s := offered (readState ch) [0x01#8] idx pending r
  s.rxValid ch = true ∧ s.rxQueue ch = r :: [] ∧ s.idx.toNat < 257 ∧
  (s.escRxPending = true ∧ v = r + 1#8 ∨ s.escRxPending = false ∧ r ≠ 0xD0#8 ∧ v = r)

/-- The first and the last cell of the buffer, the length byte of an empty frame, and the byte after a prefix. -/
theorem witness_ReadStepsStore :
    storesNext .host 0#9 false 0xE0#8 0xE0#8 ∧ storesNext .bus 1#9 false 0x00#8 0x00#8 ∧
    storesNext .bus 256#9 false 0xFF#8 0xFF#8 ∧ storesNext .host 256#9 true 0xD0#8 0xD1#8 :=
  ⟨⟨rfl, rfl, by decide, by decide⟩, ⟨rfl, rfl, by decide, by decide⟩, ⟨rfl, rfl, by decide, by decide⟩,
    ⟨rfl, rfl, by decide, by decide⟩⟩

theorem witness_ReadStepsPrefixAndWait :
    (offered .readHost [] 0#9 false 0xD0#8).rxValid .host = true ∧
    (offered .readHost [] 0#9 false 0xD0#8).rxQueue .host = [0xD0#8] ∧
    (offered .readHost [] 0#9 false 0xD0#8).escRxPending = false ∧
    (offered .readBus [] 0#9 false 0xD0#8).rxValid .bus = true ∧
    (offered .readBus [] 0#9 false 0xD0#8).rxQueue .bus = [0xD0#8] ∧
    (inState .readBus [] 0#9).rxValid .bus = false := by decide

theorem witness_IndexOutsideBufferFaults :
    ∀ i ∈ [257#9, 511#9],
      257 ≤ (offered .readHost [] i false 0xCF#8).idx.toNat ∧
      (offered .readHost [] i false 0xCF#8).rxValid .host = true ∧
      (offered .readHost [] i false 0xCF#8).rxQueue .host = [0xCF#8] ∧
      257 ≤ (offered .readBus [] i true 0xD0#8).idx.toNat ∧
      (offered .readBus [] i true 0xD0#8).escRxPending = true := by decide

/-- A read state and a body-transmit state with the invariant. -/
theorem witness_IndexOutsideBufferFaults_inv :
    Inv (inState .readBus [0x05#8] 1#9) ∧ isReading (inState .readBus [0x05#8] 1#9).state = true ∧
    Inv (inState .txHostBody [0x05#8, 0x00#8] 1#9) ∧
    isSendingBody (inState .txHostBody [0x05#8, 0x00#8] 1#9).state = true :=
  ⟨inv_of (by decide) (by decide) (by decide), rfl, inv_of (by decide) (by decide) (by decide), rfl⟩

/-- The sum of the frame in the buffer, as the validate steps form it. -/
def frameSum (s : State) : Byte := checksum ((List.range ((s.cell 1).toNat + 1)).map s.cell)

theorem witness_ValidateHostStep_wrong : frameSum badHost ≠ badHost.cell ((badHost.cell 1).toNat + 1) := by decide

theorem witness_ValidateHostStep_reset :
    frameSum resetHost = resetHost.cell ((resetHost.cell 1).toNat + 1) ∧
    resetHost.cell 0 = 0xFF#8 ∧ resetHost.cell 1 = 3#8 ∧ resetHost.cell 2 = Config.resetP0 ∧
    resetHost.cell 3 = Config.resetP1 := ⟨rfl, rfl, rfl, rfl, rfl⟩

/-- A broadcast of another length, and the empty frame of length 0. -/
theorem witness_ValidateHostStep_forward :
    (let s := inState .validateHost [0xFF#8, 0x02#8, 0x00#8, 0x01#8] 4#9
     frameSum s = s.cell ((s.cell 1).toNat + 1) ∧ s.cell 1 ≠ 3#8) ∧
    (let s := inState .validateHost [0x00#8, 0x00#8] 2#9
     frameSum s = s.cell ((s.cell 1).toNat + 1) ∧ s.cell 0 ≠ 0xFF#8) := by decide

theorem witness_ValidateBusStep :
    (let s := inState .validateBus [0x00#8, 0x02#8, 0x01#8, 0x03#8] 4#9
     frameSum s = s.cell ((s.cell 1).toNat + 1)) ∧
    frameSum badBus ≠ badBus.cell ((badBus.cell 1).toNat + 1) := by decide

theorem witness_SyncSteps :
    (inState .txBusSync [] 0#9).txReady .bus = true ∧ (denied (inState .txBusSync [] 0#9)).txReady .bus = false ∧
    (inState .txHostSync [] 0#9).txReady .host = true ∧
    (denied (inState .txHostSync [] 0#9)).txReady .host = false := by decide

/-- The four cases, at the first and at the last cell. -/
theorem witness_BodySteps :
    (let s := { inState .txBusBody [0xE0#8, 0x00#8] 0#9 with escTxPending := true }
     s.idx.toNat < 257 ∧ s.txReady .bus = true ∧ s.escTxPending = true) ∧
    (let s := { inState .txHostBody [] 256#9 with buf := [(1, 0xFF#8), (256, 0xD0#8)] }
     s.idx.toNat < 257 ∧ s.txReady .host = true ∧ s.escTxPending = false ∧ s.cell s.idx.toNat = 0xD0#8) ∧
    (let s := { inState .txHostBody [] 256#9 with buf := [(1, 0xFF#8), (256, 0xCF#8)] }
     s.idx.toNat < 257 ∧ s.txReady .host = true ∧ s.escTxPending = false ∧
     ¬ (s.cell s.idx.toNat = 0xD0#8 ∨ s.cell s.idx.toNat = 0xE0#8)) ∧
    (denied (inState .txBusBody [0x01#8, 0x00#8] 1#9)).txReady .bus = false := by decide

theorem witness_FlushSteps :
    (inState .txBusFlush [] 2#9).levels.busTxIdle = true ∧
    (denied (inState .txBusFlush [] 2#9)).levels.busTxIdle = false ∧
    (inState .txHostFlush [] 2#9).levels.hostTxIdle = true ∧
    (denied (inState .txHostFlush [] 2#9)).levels.hostTxIdle = false := by decide

theorem witness_StepsRunTheByteClass :
    (offered .readHost [] 0#9 false 0xD0#8).rxValid .host = true ∧
    (offered .readHost [] 0#9 false 0xD0#8).rxQueue .host = [0xD0#8] ∧
    (offered .readBus [] 256#9 true 0xD0#8).rxValid .bus = true ∧
    (offered .readBus [] 256#9 true 0xD0#8).rxQueue .bus = [0xD0#8] ∧
    (inState .txBusBody [] 256#9).txReady .bus = true ∧ (inState .txBusBody [] 256#9).idx.toNat < 257 := by
  decide

/-! #### Whole-machine rules -/

/-- Each register, output, cell and stream is written by some operation. -/
theorem witness_WrittenOnlyBy :
    (∃ t, exec .stTxBusSync badHost = .next t ∧ t.state ≠ badHost.state) ∧
    (∃ t, exec (.huntSync .bus) badHost = .next t ∧ t.idx ≠ badHost.idx) ∧
    (∃ t, exec .dirAcq State.reset = .next t ∧ t.busDir ≠ State.reset.busDir) ∧
    (∃ t, exec .statOn State.reset = .next t ∧ t.status ≠ State.reset.status) ∧
    (∃ t, exec .stValidateHost badHost = .next t ∧ t.diagCode ≠ badHost.diagCode) ∧
    (∃ t, exec .stValidateBus badBus = .next t ∧ t.diagReq ≠ badBus.diagReq) ∧
    (∃ t, exec (.csumAdd 1#8) State.reset = .next t ∧ t.csum ≠ State.reset.csum) ∧
    (∃ t, exec .unescPfx State.reset = .next t ∧ t.escRxPending ≠ State.reset.escRxPending) ∧
    (∃ t, exec (.escPfxD0 .bus) badHost = .next t ∧ t.escTxPending ≠ badHost.escTxPending) ∧
    (let s := offered .readHost [0x00#8] 0#9 false 0x05#8
     ∃ t, exec .stReadHost s = .next t ∧ t.cell 0 ≠ s.cell 0 ∧ t.hostRx ≠ s.hostRx) ∧
    (let s := offered .awaitBusSync [] 0#9 false 0x05#8
     ∃ t, exec .stAwaitBusSync s = .next t ∧ t.busRx ≠ s.busRx) :=
  ⟨⟨_, rfl, by decide⟩, ⟨_, rfl, by decide⟩, ⟨_, rfl, by decide⟩, ⟨_, rfl, by decide⟩, ⟨_, rfl, by decide⟩,
   ⟨_, rfl, by decide⟩, ⟨_, rfl, by decide⟩, ⟨_, rfl, by decide⟩, ⟨_, rfl, by decide⟩, ⟨_, rfl, by decide, by decide⟩, ⟨_, rfl, by decide⟩⟩

theorem witness_TransitionGraph :
    badHost.levels.rst = false ∧ ∃ t, step badHost = .next t ∧ t.state ≠ badHost.state :=
  ⟨rfl, _, rfl, by decide⟩

/-- One state for each way of being blocked; all but the body-transmit state stand after a frame of length 255. -/
theorem witness_BlockedStepChangesNothing :
    (let s := denied (inState .absorb [] 257#9)
     s.levels.rst = false ∧ s.now = [] ∧ isSendingBody s.state = false ∧ (reportOf s.state).isSome = true ∧
     s.levels.diagDone = false) ∧
    (let s := inState .awaitBusSync [] 257#9
     s.levels.rst = false ∧ s.now = [] ∧ isSendingBody s.state = false ∧ s.rxReady .bus = true ∧
     s.rxValid .bus = false) ∧
    (let s := denied (inState .txHostBody [] 256#9)
     s.levels.rst = false ∧ s.now = [] ∧ s.idx.toNat < 257 ∧ s.txValid .host = true ∧
     s.txReady .host = false) ∧
    (let s := denied (inState .txBusFlush [] 257#9)
     s.levels.rst = false ∧ s.now = [] ∧ isSendingBody s.state = false ∧ s.state = flushState .bus ∧
     s.txIdle .bus = false) := by decide

/-- A byte taken, one not taken, one sent, one not sent. -/
theorem witness_StreamHandshake :
    (let s := offered .readHost [] 0#9 false 0xD0#8
     s.now = [] ∧ (∃ t, step s = .next t) ∧ (s.rxValid .host = true ∧ s.rxReady .host = true) ∧
     ¬ (s.rxValid .bus = true ∧ s.rxReady .bus = true)) ∧
    (let s := inState .txBusSync [] 0#9
     s.now = [] ∧ (∃ t, step s = .next t) ∧ (s.txValid .bus = true ∧ s.txReady .bus = true) ∧
     ¬ (s.txValid .host = true ∧ s.txReady .host = true)) :=
  ⟨⟨rfl, ⟨_, rfl⟩, by decide, by decide⟩, ⟨rfl, ⟨_, rfl⟩, by decide, by decide⟩⟩

/-- Two cycles that differ in what the host hunt does not wait for. -/
theorem witness_UnusedInputsAreIgnored :
    let s := inState .awaitHostSync [] 0#9
    let l := grantAll
    let m : Levels := { grantNone with hostRxValid := true }
    l.rst = m.rst ∧ ((reportOf s.state).isSome = true → l.diagDone = m.diagDone) ∧
    (s.state = .awaitHostSync ∨ s.state = .readHost → l.hostRxValid = m.hostRxValid) ∧
    (s.state = .awaitBusSync ∨ s.state = .readBus → l.busRxValid = m.busRxValid) ∧
    (s.state = .txHostSync ∨ s.state = .txHostBody → l.hostTxReady = m.hostTxReady) ∧
    (s.state = .txBusSync ∨ s.state = .txBusBody → l.busTxReady = m.busTxReady) ∧
    (s.state = .txHostFlush → l.hostTxIdle = m.hostTxIdle) ∧
    (s.state = .txBusFlush → l.busTxIdle = m.busTxIdle) ∧ l ≠ m := by decide

theorem witness_StaleOutputsAreNeverRead : ∃ t, step badBus = .next t := ⟨_, rfl⟩

/-! #### Invariants -/

theorem reset_inv : Inv State.reset := inv_of (by decide) (by decide) (by decide)

theorem witness_StepKeepsInvariant : Inv badBus ∧ ∃ t, step badBus = .next t := ⟨badBus_inv, _, rfl⟩

theorem witness_InvariantStatesAreSafe : Inv State.reset ∧ Inv badHost := ⟨reset_inv, badHost_inv⟩

/-- A state inside the direction window, after the `DIR(1)`, that sends a byte. -/
theorem witness_StepKeepsDirectionDiscipline :
    let s := { inState .txBusBody [0xE0#8, 0x00#8] 0#9 with
                trace := [[.dir true, .status true], [.btx 0xE0#8]]
                runs := [[[.dir true], [.dir false]]] }
    Inv s ∧ followDir false s.trace.flatten = some s.busDir ∧
    (∀ r ∈ s.runs, followDir false r.flatten = some false) ∧ ∃ t, step s = .next t ∧ t.trace ≠ s.trace :=
  ⟨inv_of (by decide) (by decide) (by decide), by decide, by decide, _, rfl, by decide⟩

/-- Reset itself, and a state inside both windows: the frame `00 00` of length 0 (D9), five cycles after reset. -/
theorem witness_Reachable :
    Reachable State.reset ∧ ∃ s, Reachable s ∧ s.state = .txBusSync ∧ s.status = true ∧ s.busDir = true :=
  ⟨⟨[], [], [], 0, rfl⟩,
   _, ⟨[0xE0#8, 0x00#8, 0x00#8], [], List.replicate 5 grantAll, 5, rfl⟩, by decide, by decide, by decide⟩

/-! #### Whole frames -/

/-- A frame of length 0 from the host, and a frame with a pair on the bus. -/
theorem witness_FrameIsReceived :
    (let s := { inState .readHost [] 0#9 with
                hostRx := [0x05#8, 0x00#8, 0x77#8], schedule := List.replicate 2 grantAll }
     unescape [0x05#8, 0x00#8] = ([0x05#8, 0x00#8], false) ∧ ([0x05#8, 0x00#8] : List Byte).length = 0 + 2 ∧
     s.state = readState .host ∧ s.idx = 0#9 ∧ s.escRxPending = false ∧ s.now = [] ∧
     s.rxQueue .host = [0x05#8, 0x00#8] ++ [0x77#8] ∧ grantsFor 2 s) ∧
    (let s := { inState .readBus [] 0#9 with
                busRx := [0xDF#8, 0x01#8, 0xD0#8, 0xDF#8], schedule := List.replicate 4 grantAll }
     unescape [0xDF#8, 0x01#8, 0xD0#8, 0xDF#8] = ([0xDF#8, 0x01#8, 0xE0#8], false) ∧
     s.state = readState .bus ∧ s.idx = 0#9 ∧ s.escRxPending = false ∧ s.now = [] ∧
     s.rxQueue .bus = [0xDF#8, 0x01#8, 0xD0#8, 0xDF#8] ++ [] ∧ grantsFor 4 s) := by
  refine ⟨⟨by decide, by decide, rfl, rfl, rfl, rfl, rfl, by decide, by decide⟩,
    by decide, rfl, rfl, rfl, rfl, rfl, by decide, by decide⟩

theorem witness_FrameIsSent :
    let s := { inState .txBusBody [0xE0#8, 0x00#8] 0#9 with schedule := List.replicate 3 grantAll }
    s.state = bodyState .bus ∧ s.idx = 0#9 ∧ s.escTxPending = false ∧ s.now = [] ∧
    grantsFor (escape (s.cells (s.length.toNat + 2))).length s :=
  ⟨rfl, rfl, rfl, rfl, by decide, by decide⟩

/-- `count` cycles that grant everything are granted. -/
theorem grantsFor_replicate (s : State) (n : Nat) (h : s.schedule = List.replicate n grantAll) : grantsFor n s := by
  refine ⟨by rw [h]; simp, fun l hl => ?_⟩
  rw [h] at hl
  rw [List.eq_of_mem_replicate (List.mem_of_mem_take hl)]
  decide

/-- An empty request to node 1, and a reply with a wrong checksum; and the same request with a right reply. -/
theorem witness_FramePairIsRelayed :
    let f := Frame.make 0x01#8 []
    let g : Frame := ⟨0x00#8, 0x01#8, [], 0xE0#8⟩
    let s := { inState .awaitHostSync [] 0#9 with
                hostRx := [0x00#8] ++ f.wire ++ [], busRx := [] ++ g.wire ++ [0xE0#8]
                schedule := List.replicate (1 + 2 * f.wire.length + 1 + 1 + 0 + 2 * g.wire.length + 1 + 1 + 1) grantAll }
    Inv s ∧ s.state = .awaitHostSync ∧ f.wf = true ∧ ¬ isResetFrame f ∧ g.counted = true ∧ g.wf = false ∧
    (Frame.make 0x00#8 []).wf = true ∧
    Config.sync ∉ [0x00#8] ∧
    grantsFor (1 + 2 * f.wire.length + 1 + 1 + 0 + 2 * g.wire.length + 1 + 1 + 1) s := by
  refine ⟨inv_of (by decide) (by decide) (by decide), rfl, by decide, fun h => absurd h.1 (by decide), by decide,
    by decide, by decide, by decide, grantsFor_replicate _ _ rfl⟩

theorem witness_HostFrameIsDroppedOrAbsorbed_dropped :
    let f : Frame := ⟨0x01#8, 0x01#8, [], 0x00#8⟩
    let s := { inState .awaitHostSync [] 0#9 with
                hostRx := [0x07#8] ++ f.wire ++ [], schedule := List.replicate (1 + f.wire.length + 2) grantAll }
    Inv s ∧ s.state = .awaitHostSync ∧ f.counted = true ∧ Config.sync ∉ [0x07#8] ∧ f.wf = false ∧
    grantsFor (1 + f.wire.length + 2) s :=
  ⟨inv_of (by decide) (by decide) (by decide), rfl, by decide, by decide, by decide,
    grantsFor_replicate _ _ rfl⟩

theorem witness_HostFrameIsDroppedOrAbsorbed_absorbed :
    let f := Frame.make 0xFF#8 [Config.resetP0, Config.resetP1]
    let s := { inState .awaitHostSync [] 0#9 with
                hostRx := [] ++ f.wire ++ [], schedule := List.replicate (0 + f.wire.length + 2) grantAll }
    Inv s ∧ s.state = .awaitHostSync ∧ f.counted = true ∧ f.wf = true ∧ isResetFrame f ∧
    grantsFor (0 + f.wire.length + 2) s :=
  ⟨inv_of (by decide) (by decide) (by decide), rfl, by decide, by simp [Frame.wf, Frame.counted, Frame.make],
    ⟨rfl, rfl, rfl⟩, grantsFor_replicate _ _ rfl⟩

end Sys2Proof.Tests
end

section
/-! SUPPORT. The equations of `Escape` and `Unescape`, one for each kind of byte at the head of the sequence. -/

namespace Sys2Proof

theorem isReserved_iff (v : Byte) : isReserved v = true ↔ v = Config.esc ∨ v = Config.sync := by
  simp [isReserved]

@[simp] theorem escape_nil : escape [] = [] := rfl

/-- A reserved byte goes out as the marker and the byte less one. -/
theorem escape_cons_of_reserved {v : Byte} (h : isReserved v = true) (a : List Byte) :
    escape (v :: a) = Config.esc :: (v - 1#8) :: escape a := by
  simp [escape, h]

/-- Any other byte goes out as itself. -/
theorem escape_cons_of_not_reserved {v : Byte} (h : isReserved v = false) (a : List Byte) :
    escape (v :: a) = v :: escape a := by
  simp [escape, h]

@[simp] theorem unescape_nil : unescape [] = ([], false) := rfl

/-- After a marker the next raw byte is its argument, whatever it is. -/
@[simp] theorem unescape_esc_cons (c : Byte) (s : List Byte) :
    unescape (Config.esc :: c :: s) = ((c + 1#8) :: (unescape s).1, (unescape s).2) := by
  simp [unescape]

/-- A byte that is not the marker stands for itself, at the end of the sequence too. -/
theorem unescape_cons_of_ne_esc {r : Byte} (h : r ≠ Config.esc) (s : List Byte) :
    unescape (r :: s) = (r :: (unescape s).1, (unescape s).2) := by
  cases s <;> simp [unescape, h]

end Sys2Proof
end

section
/-! PROOFS. The escaper of 40_byte_escaper.md: `Unescape` undoes `Escape`. -/

namespace Sys2Proof

/-- The round trip of R91: each byte of the sequence is read back from the one or two raw bytes it went out as. -/
theorem unescape_escape (b : List Byte) : unescape (escape b) = (b, false) := by
  induction b with
  | nil => rfl
  | cons v a ih =>
    cases hv : isReserved v with
    | true => simp [escape_cons_of_reserved hv, ih]
    | false =>
      have hne : v ≠ Config.esc := by
        rintro rfl
        exact absurd hv (by decide)
      rw [escape_cons_of_not_reserved hv, unescape_cons_of_ne_esc hne, ih]

/-- The fixed points of R91. -/
theorem escape_singleton_of_ne {b : Byte} (hsync : b ≠ Config.sync) (hesc : b ≠ Config.esc) :
    escape [b] = [b] := by
  have hb : isReserved b = false := by
    rw [← Bool.not_eq_true, isReserved_iff]
    exact not_or.mpr ⟨hesc, hsync⟩
  rw [escape_cons_of_not_reserved hb, escape_nil]

/-- `0xD0 0x05` is a raw spelling of the byte `0x06`, which `Escape` never emits: it sends `0x06` as itself. -/
theorem escape_unescape_needless_marker :
    escape (unescape [Config.esc, 0x05#8]).1 = [0x06#8] := by decide

/-- Settles O5: the round trip by induction on the bytes, and a needlessly escaped byte against the converse. -/
theorem escapeRoundTrip : Obligations.EscapeRoundTrip := by
  refine ⟨unescape_escape, fun b hsync hesc => escape_singleton_of_ne hsync hesc, fun h => ?_⟩
  have hraw := h [Config.esc, 0x05#8]
  rw [escape_unescape_needless_marker] at hraw
  exact absurd hraw (by decide)

end Sys2Proof
end

section
/-! PROOFS. The function of 42_checksum_adder.md section 1: `Checksum` is a sum modulo 256. -/

namespace Sys2Proof

@[simp] theorem checksum_nil : checksum [] = 0#8 := rfl

/-- The formula of R105, on numbers. -/
theorem toNat_checksum (a : List Byte) : (checksum a).toNat = (a.map BitVec.toNat).sum % 256 :=
  BitVec.toNat_ofNat _ 8

/-- `Checksum` depends on its bytes through their sum alone, and a sum has no order. -/
theorem checksum_eq_of_perm {a b : List Byte} (h : a.Perm b) : checksum a = checksum b := by
  have hsum : (a.map BitVec.toNat).sum = (b.map BitVec.toNat).sum := (h.map BitVec.toNat).sum_eq
  rw [checksum, checksum, hsum]

/-- The 0xFF range of R105: each byte counts as -1 modulo 256. -/
theorem toNat_checksum_replicate_ff (n : Nat) :
    ((checksum (List.replicate n 0xFF#8)).toNat : Int) = (256 - (n : Int)) % 256 := by
  have hsum : ((List.replicate n 0xFF#8).map BitVec.toNat).sum = n * 255 := by simp
  rw [toNat_checksum, hsum]
  omega

/-- Settles O18: the formula, then each of the rule's corner cases from it, and the example by evaluation. -/
theorem checksumIsSum : Obligations.ChecksumIsSum :=
  ⟨toNat_checksum, checksum_nil, toNat_checksum_replicate_ff, fun _ _ h => checksum_eq_of_perm h, by decide⟩

end Sys2Proof
end

section
/-! PROOFS. The sync-transmit steps of 43_frame_relay_fsm.md: the sync byte goes out raw, or the step waits. -/

namespace Sys2Proof.Machine

/-- The sync-transmit step of either channel is the shared `sendSync` toward that channel's body state. -/
theorem exec_syncInstr (ch : Chan) (s : State) :
    exec (syncInstr ch) s = .next (sendSync ch (bodyState ch) s) := by
  cases ch with
  | host => rfl
  | bus => rfl

/-- A sync-transmit step fires in one beat: the byte 0xE0 as it is, with no marker before it (R92). -/
theorem sendSync_of_txReady {ch : Chan} {s : State} (h : s.txReady ch = true) (next : FsmState) :
    sendSync ch next s = { s with state := next, now := s.now ++ [txEvent ch 0xE0#8] } := by
  obtain ⟨hwait, _⟩ | ⟨_, hsent⟩ := sendSync_cases ch next s
  · exact absurd (hwait.symm.trans h) Bool.false_ne_true
  · exact hsent

/-- A sync-transmit step whose stream takes no byte is blocked (R7). -/
theorem sendSync_of_not_txReady {ch : Chan} {s : State} (h : s.txReady ch = false) (next : FsmState) :
    sendSync ch next s = s := by
  obtain ⟨_, hsame⟩ | ⟨hready, _⟩ := sendSync_cases ch next s
  · exact hsame
  · exact absurd (h.symm.trans hready) Bool.false_ne_true

/-- Settles O34: on either channel the step is `sendSync`, by whether the stream takes a byte. -/
theorem syncSteps : Obligations.SyncSteps := by
  intro ch s
  rw [exec_syncInstr]
  exact ⟨fun h => by rw [sendSync_of_txReady h], fun h => by rw [sendSync_of_not_txReady h]⟩

end Sys2Proof.Machine
end

section
/-! PROOFS. The frame decoder of 30_encoding.md: the hunt passes over noise, and counting logical bytes undoes `Escape`. -/

namespace Sys2Proof

theorem esc_ne_of_not_reserved {v : Byte} (h : isReserved v = false) : v ≠ Config.esc := by
  rintro rfl
  exact absurd h (by decide)

theorem sync_ne_of_not_reserved {v : Byte} (h : isReserved v = false) : v ≠ Config.sync := by
  rintro rfl
  exact absurd h (by decide)

/-- The second byte of an escaped pair is one of two (R63). -/
theorem reserved_sub_one {v : Byte} (h : isReserved v = true) : v - 1#8 = 0xCF#8 ∨ v - 1#8 = 0xDF#8 := by
  obtain rfl | rfl := (isReserved_iff v).mp h
  · exact .inl (by decide)
  · exact .inr (by decide)

/-- `Escape` is per byte (R89). -/
theorem escape_append (a b : List Byte) : escape (a ++ b) = escape a ++ escape b := by
  induction a with
  | nil => rfl
  | cons v a ih =>
    cases hv : isReserved v with
    | true => simp [escape_cons_of_reserved hv, ih]
    | false => simp [escape_cons_of_not_reserved hv, ih]

/-- The hunt drops every byte before the first sync byte (R117, R131). -/
theorem afterSync_append_sync {noise : List Byte} (h : Config.sync ∉ noise) (s : List Byte) :
    afterSync (noise ++ Config.sync :: s) = some s := by
  induction noise with
  | nil => simp [afterSync]
  | cons r noise ih =>
    obtain ⟨hr, hrest⟩ := List.ne_and_not_mem_of_not_mem_cons h
    simp [afterSync, Ne.symm hr, ih hrest]

/-- Counting off as many logical bytes as were escaped gives them back, and leaves what follows (R94). -/
theorem takeLogical_escape (a rest : List Byte) :
    takeLogical a.length (escape a ++ rest) = some (a, rest) := by
  induction a with
  | nil => simp [takeLogical]
  | cons v a ih =>
    cases hv : isReserved v with
    | true => simp [escape_cons_of_reserved hv, takeLogical, ih]
    | false => simp [escape_cons_of_not_reserved hv, takeLogical, esc_ne_of_not_reserved hv, ih]

/-- The logical bytes of a frame are its two header bytes and, counted by `length`, the rest (R60, R61). -/
theorem Frame.logical_eq_append (f : Frame) : f.logical = [f.node, f.length] ++ (f.payload ++ [f.check]) := rfl

theorem Frame.length_body {f : Frame} (h : f.counted = true) :
    (f.payload ++ [f.check]).length = f.length.toNat := by
  simpa [Frame.counted] using (beq_iff_eq.mp h).symm

theorem Frame.length_logical {f : Frame} (h : f.counted = true) :
    f.logical.length = f.length.toNat + 2 := by
  simp [Frame.logical_eq_append, ← Frame.length_body h]

/-- Settles O3: the hunt finds the frame's sync byte, and each part of `Escape(B)` is counted off in turn. -/
theorem frameDecodeOfWire : Obligations.FrameDecodeOfWire := by
  intro f noise rest hcounted hnoise
  have hhunt : afterSync (noise ++ f.wire ++ rest) =
      some (escape [f.node, f.length] ++ (escape (f.payload ++ [f.check]) ++ rest)) := by
    rw [← List.append_assoc (escape _), ← escape_append, ← Frame.logical_eq_append, List.append_assoc]
    exact afterSync_append_sync hnoise (escape f.logical ++ rest)
  have hheader := takeLogical_escape [f.node, f.length] (escape (f.payload ++ [f.check]) ++ rest)
  have hbody := takeLogical_escape (f.payload ++ [f.check]) rest
  rw [Frame.length_body hcounted] at hbody
  simp only [List.length_cons, List.length_nil, Nat.zero_add, Nat.reduceAdd] at hheader
  simp only [decodeFrame, hhunt, hheader, hbody, List.getLast?_concat, List.dropLast_concat]

/-- The sync byte is reserved, and no second byte of a pair equals it (R90). -/
theorem sync_not_mem_escape (a : List Byte) : Config.sync ∉ escape a := by
  induction a with
  | nil => simp
  | cons v a ih =>
    cases hv : isReserved v with
    | true =>
      have hsecond : Config.sync ≠ v - 1#8 := by
        rcases reserved_sub_one hv with h | h <;> rw [h] <;> decide
      have hmarker : Config.sync ≠ Config.esc := by decide
      simp [escape_cons_of_reserved hv, hmarker, hsecond, ih]
    | false => simp [escape_cons_of_not_reserved hv, (sync_ne_of_not_reserved hv).symm, ih]

/-- In an escaped sequence every marker is the first byte of a pair (R90). -/
theorem escape_marker_followed (a pre post : List Byte) (h : escape a = pre ++ Config.esc :: post) :
    ∃ c post', post = c :: post' ∧ (c = 0xCF#8 ∨ c = 0xDF#8) := by
  induction a generalizing pre with
  | nil => simp at h
  | cons v a ih =>
    cases hv : isReserved v with
    | true =>
      rw [escape_cons_of_reserved hv] at h
      match pre, h with
      | [], h =>
        have hpost : post = (v - 1#8) :: escape a := by simpa using h.symm
        exact ⟨v - 1#8, escape a, hpost, reserved_sub_one hv⟩
      | [x], h =>
        have hsecond : v - 1#8 = Config.esc := by simp at h; exact h.2.1
        rcases reserved_sub_one hv with h' | h' <;> exact absurd (h'.symm.trans hsecond) (by decide)
      | x :: y :: pre, h =>
        simp only [List.cons_append, List.cons.injEq] at h
        exact ih pre h.2.2
    | false =>
      rw [escape_cons_of_not_reserved hv] at h
      match pre, h with
      | [], h => exact absurd (List.cons.inj h).1 (esc_ne_of_not_reserved hv)
      | x :: pre, h => exact ih pre (List.cons.inj h).2

/-- Each reserved byte costs one raw byte more (R90). -/
theorem length_escape (a : List Byte) : (escape a).length = a.length + a.countP isReserved := by
  induction a with
  | nil => rfl
  | cons v a ih =>
    cases hv : isReserved v with
    | true => simp [escape_cons_of_reserved hv, hv, ih]; omega
    | false => simp [escape_cons_of_not_reserved hv, hv, ih]; omega

/-- Settles O6: what `Escape` emits, by induction on the bytes; the sync byte of a wire frame is outside of it. -/
theorem escapedSequenceContents : Obligations.EscapedSequenceContents := by
  intro a
  have hlen := length_escape a
  have hcount : a.countP isReserved ≤ a.length := List.countP_le_length
  refine ⟨sync_not_mem_escape a, fun pre post h => escape_marker_followed a pre post h, by omega, by omega,
    hlen, fun f => ⟨rfl, ?_⟩⟩
  have hnone : (escape f.logical).count 0xE0#8 = 0 := List.count_eq_zero.mpr (sync_not_mem_escape _)
  simp [Frame.wire, Config.sync, hnone]

/-! ### `Unescape` of a concatenation -/

/-- `Unescape` reads on from where the first part ends: from its start if no marker is outstanding there, and after a
marker otherwise (R99). -/
theorem unescape_append (s t : List Byte) :
    unescape (s ++ t) =
      let rest := unescape (if (unescape s).2 then Config.esc :: t else t)
      ((unescape s).1 ++ rest.1, rest.2) := by
  induction s using unescape.induct with
  | case1 => simp
  | case2 => simp [unescape]
  | case3 r hr => simp [unescape, hr, unescape_cons_of_ne_esc]
  | case4 c s ih => simp [ih]
  | case5 r c s hr ih =>
    rw [List.cons_append, unescape_cons_of_ne_esc hr, unescape_cons_of_ne_esc hr, ih]
    rfl

/-- Settles O7: `Escape` per byte, and the two ways in which the first part of a raw sequence can end. -/
theorem escapeAndUnescapeAppend : Obligations.EscapeAndUnescapeAppend := by
  refine ⟨escape_append, fun s t h => ?_, fun s t c h => ?_⟩
  · simp [unescape_append, h]
  · simp [unescape_append s, h]

end Sys2Proof
end

section
/-! PROOFS. The laws of 42_checksum_adder.md section 4. -/

namespace Sys2Proof

@[simp] theorem checksum_cons (x : Byte) (a : List Byte) : checksum (x :: a) = x + checksum a := by
  simp [checksum, BitVec.ofNat_add]

/-- The checksum is additive (R110). -/
theorem checksum_append (a b : List Byte) : checksum (a ++ b) = checksum a + checksum b := by
  induction a with
  | nil => simp
  | cons x a ih => simp [ih, BitVec.add_assoc]

/-- Adding the bytes from the left, from any start. -/
theorem foldl_add_eq_checksum (a : List Byte) (x : Byte) : a.foldl (fun x y => x + y) x = x + checksum a := by
  induction a generalizing x with
  | nil => simp
  | cons y a ih => rw [List.foldl_cons, ih, checksum_cons, BitVec.add_assoc]

/-- A change of one byte changes the checksum by the difference. -/
theorem checksum_set (a : List Byte) (i : Nat) (b : Byte) (h : i < a.length) :
    checksum (a.set i b) + a[i] = checksum a + b := by
  induction a generalizing i with
  | nil => simp at h
  | cons x a ih =>
    cases i with
    | zero =>
      simp only [List.set_cons_zero, checksum_cons, List.getElem_cons_zero]
      ac_rfl
    | succ i =>
      have hi := ih i (by simpa using h)
      simp only [List.set_cons_succ, checksum_cons, List.getElem_cons_succ, BitVec.add_assoc, hi]

/-- A one-byte change that keeps the checksum is no change (R110). -/
theorem set_eq_self_of_checksum {a : List Byte} {i : Nat} {b : Byte} (hi : i < a.length)
    (h : checksum (a.set i b) = checksum a) : a.set i b = a := by
  have hset := checksum_set a i b hi
  rw [h] at hset
  have hb : b = a[i] := (BitVec.add_right_inj _).mp hset |>.symm
  rw [hb, List.set_getElem_self]

/-- The bytes of a frame that its checksum covers. -/
def Frame.covered (f : Frame) : List Byte := f.node :: f.length :: f.payload

theorem Frame.logical_eq_covered (f : Frame) : f.logical = f.covered ++ [f.check] := rfl

theorem Frame.wf_check {f : Frame} (h : f.wf = true) : f.check = checksum f.covered := by
  simp only [Frame.wf, Bool.and_eq_true, beq_iff_eq] at h
  exact h.2

theorem Frame.wf_counted {f : Frame} (h : f.wf = true) : f.counted = true := by
  simp only [Frame.wf, Bool.and_eq_true] at h
  exact h.1

theorem Frame.eq_of_covered {f g : Frame} (h : g.covered = f.covered) (hc : g.check = f.check) : g = f := by
  cases f
  cases g
  simp only [Frame.covered, List.cons.injEq] at h
  obtain ⟨hnode, hlength, hpayload⟩ := h
  simp_all

/-- A well-formed frame is the only one among those that differ from it in one byte (R110). -/
theorem Frame.eq_of_set {f g : Frame} {i : Nat} {b : Byte} (hf : f.wf = true) (hg : g.wf = true)
    (h : g.logical = f.logical.set i b) : g = f := by
  rw [Frame.logical_eq_covered, Frame.logical_eq_covered, List.set_append] at h
  split at h
  · rename_i hi
    obtain ⟨hcov, hcheck⟩ := List.append_inj' h rfl
    have hcheck : g.check = f.check := (List.cons.inj hcheck).1
    refine Frame.eq_of_covered ?_ hcheck
    rw [Frame.wf_check hf, Frame.wf_check hg, hcov] at hcheck
    rw [hcov, set_eq_self_of_checksum hi hcheck]
  · obtain ⟨hcov, _⟩ := List.append_inj' h (by simp)
    exact Frame.eq_of_covered hcov (by rw [Frame.wf_check hf, Frame.wf_check hg, hcov])

/-- Settles O8: the sum's laws, and that no second well-formed frame is one byte away. -/
theorem checksumLaws : Obligations.ChecksumLaws := by
  refine ⟨checksum_append, fun a b h => checksum_eq_of_perm h, fun x => by simp, fun f hf => ?_,
    fun f g i b hf _ hset hne => ?_⟩
  · rw [Frame.logical_eq_covered, checksum_append, ← Frame.wf_check hf, checksum_cons, checksum_nil,
      BitVec.add_zero, BitVec.two_mul]
  · exact Bool.eq_false_iff.mpr fun hg => hne (Frame.eq_of_set hf hg hset)

end Sys2Proof
end

section
/-! PROOFS. The decoder of 30_encoding.md section 2 and its encoder: every row in its own context. -/

namespace Sys2Proof

/-- Settles O1: a row with an operand is selected by the operand's class (R65, R76), the others by their bits alone. -/
theorem decodeOfEncode : Obligations.DecodeOfEncode := by
  intro i hwf
  cases i with
  | huntSkip ch r =>
    have hr : r ≠ Config.sync := by simpa [Instr.wf] using hwf
    simp [decode, decodeByte, Decoded.withRest, Instr.ctx, encode, decodeHunt, hr]
  | unescLit r =>
    have hr : r ≠ Config.esc := by simpa [Instr.wf] using hwf
    simp [decode, decodeByte, Decoded.withRest, Instr.ctx, encode, decodeBody, hr]
  | escPass ch v =>
    have hv : isReserved v = false := by simpa [Instr.wf] using hwf
    simp [decode, decodeByte, Decoded.withRest, Instr.ctx, encode, decodeTx, esc_ne_of_not_reserved hv,
      sync_ne_of_not_reserved hv]
  | senseNop b => cases b <;> rfl
  | _ => rfl

/-! ### Codes that stand in the low half of a byte -/

theorem setWidth_eight_four {b : Byte} (h : b.toNat < 16) : (b.setWidth 4).setWidth 8 = b := by
  apply BitVec.eq_of_toNat_eq
  simp only [BitVec.toNat_setWidth]
  omega

/-- Every state code is the word of the step it selects (R72). -/
theorem encode_decodeFsm (c : Nibble) :
    (decodeFsm c).ctx = .fsm ∧ encode (decodeFsm c) = [c.setWidth 8] := by
  revert c
  decide

/-- Every diagnostic code that is driven is the word of its report (R166). -/
theorem encode_diagInstr (c : Nibble) (d : Diag) (h : Diag.ofCode c = some d) :
    (diagInstr d).ctx = .diag ∧ encode (diagInstr d) = [c.setWidth 8] := by
  have hcode : c = d.code := by
    revert c
    cases d <;> decide
  rw [hcode]
  cases d <;> exact ⟨rfl, rfl⟩

/-! ### One byte in each context -/

theorem encode_decodeHunt (ch : Chan) (b : Byte) :
    (decodeHunt ch b).ctx = .hunt ch ∧ encode (decodeHunt ch b) = [b] := by
  by_cases h : b = Config.sync
  · simp [decodeHunt, h, Instr.ctx, encode, Config.sync]
  · simp [decodeHunt, h, Instr.ctx, encode]

theorem encode_decodeBody (b : Byte) :
    (decodeBody false b).ctx = .body ∧ encode (decodeBody false b) = [b] := by
  by_cases h : b = Config.esc
  · simp [decodeBody, h, Instr.ctx, encode, Config.esc]
  · simp [decodeBody, h, Instr.ctx, encode]

theorem encode_decodeTx (ch : Chan) (b : Byte) :
    (decodeTx ch false b).ctx = .tx ch ∧ encode (decodeTx ch false b) = [b] := by
  by_cases hesc : b = Config.esc
  · simp [decodeTx, hesc, Instr.ctx, encode, Config.esc]
  · by_cases hsync : b = Config.sync
    · simp [decodeTx, hsync, Instr.ctx, encode, Config.sync, Config.esc]
    · simp [decodeTx, hesc, hsync, Instr.ctx, encode]

/-- The level of `bus_sense` is read back from its byte (R157). -/
theorem encode_senseNop {b : Byte} (h : b.toNat < 2) : encode (.senseNop (b == 1#8)) = [b] := by
  have hb : b = 0#8 ∨ b = 1#8 := by bv_omega
  obtain rfl | rfl := hb <;> rfl

/-- The byte that an operation is decoded from is its encoding, in each context that takes one byte. -/
theorem decodeByte_ok {c : Ctx} {b : Byte} {i : Instr} {t : List Byte} (h : decodeByte c b = .ok i t) :
    i.ctx = c ∧ encode i = [b] ∧ t = [] := by
  cases c with
  | hunt ch =>
    cases h
    obtain ⟨hctx, henc⟩ := encode_decodeHunt ch b
    exact ⟨hctx, henc, rfl⟩
  | body =>
    cases h
    obtain ⟨hctx, henc⟩ := encode_decodeBody b
    exact ⟨hctx, henc, rfl⟩
  | tx ch =>
    cases h
    obtain ⟨hctx, henc⟩ := encode_decodeTx ch b
    exact ⟨hctx, henc, rfl⟩
  | fsm =>
    simp only [decodeByte] at h
    split at h
    · rename_i hlow
      cases h
      obtain ⟨hctx, henc⟩ := encode_decodeFsm (b.setWidth 4)
      exact ⟨hctx, by rw [henc, setWidth_eight_four hlow], rfl⟩
    · cases h
  | diag =>
    simp only [decodeByte] at h
    split at h
    · rename_i hlow
      cases hd : Diag.ofCode (b.setWidth 4) with
      | none => rw [hd] at h; cases h
      | some d =>
        rw [hd] at h
        cases h
        obtain ⟨hctx, henc⟩ := encode_diagInstr _ d hd
        exact ⟨hctx, by rw [henc, setWidth_eight_four hlow], rfl⟩
    · cases h
  | sense =>
    simp only [decodeByte] at h
    split at h
    · rename_i hlow
      cases h
      exact ⟨rfl, encode_senseNop hlow, rfl⟩
    · cases h
  | arg | txArg ch | validateByte | validateEnd => cases h; exact ⟨rfl, rfl, rfl⟩
  | _ => cases h

theorem byteWord_ok {c : Ctx} {b : Byte} {i : Instr} {w rest : List Byte}
    (h : (decodeByte c b).withRest w = .ok i rest) : i.ctx = c ∧ encode i ++ rest = b :: w := by
  cases hb : decodeByte c b with
  | ok j t =>
    rw [hb] at h
    cases h
    obtain ⟨hctx, henc, rfl⟩ := decodeByte_ok hb
    exact ⟨hctx, by rw [henc]; rfl⟩
  | reject why => rw [hb] at h; cases h

/-- Settles O2: a context takes one byte, or none, or the whole word. -/
theorem encodeOfDecode : Obligations.EncodeOfDecode := by
  intro c w i rest h
  cases c with
  | noByte => cases h
  | validateStart | forwardDir | forwardStatus | busFlushed | hostFlushed => cases h; exact ⟨rfl, rfl⟩
  | escapeArg | unescapeArg | checksumArg => cases h; exact ⟨rfl, List.append_nil w⟩
  | _ =>
    cases w with
    | nil => cases h
    | cons b w => exact byteWord_ok h

/-- Settles O4: the decoder evaluated on each word. -/
theorem tableWordsDecode : Obligations.TableWordsDecode :=
  ⟨rfl, rfl, rfl, rfl, rfl, rfl, rfl, rfl, rfl, rfl, rfl, rfl⟩

end Sys2Proof
end

section
/-! PROOFS. The operations of the sub-blocks run by themselves, in every state (log entry 9). -/

namespace Sys2Proof.Machine

/-- Settles O13: the hunt's two operations are record updates. -/
theorem huntOperations : Obligations.HuntOperations :=
  fun _ => ⟨rfl, rfl, fun _ => ⟨rfl, rfl⟩⟩

/-- Settles O14: the unescaper's three operations are record updates. -/
theorem unescaperOperations : Obligations.UnescaperOperations :=
  fun _ _ => ⟨rfl, rfl, rfl⟩

/-! ### The escaper -/

theorem send_of_txReady {ch : Chan} {s : State} (h : s.txReady ch = true) (v : Byte) :
    send ch v s = some (s.emit (txEvent ch v)) := if_pos h

theorem send_of_not_txReady {ch : Chan} {s : State} (h : s.txReady ch = false) (v : Byte) :
    send ch v s = none := by
  simp [send, h]

/-- Settles O15: each of the escaper's operations is one `Send` and its flags. -/
theorem escaperOperations : Obligations.EscaperOperations := by
  intro s ch h
  have hmark : orBlocked s (escMarkBeat ch s) =
      { s with
        now := s.now ++ [txEvent ch 0xD0#8], escTxPending := true, out := { s.out with advance := false } } := by
    rw [escMarkBeat, send_of_txReady h]
    rfl
  refine ⟨fun v => ?_, congrArg _ hmark, congrArg _ hmark, fun v => ?_⟩
  · simp only [exec, execEscPass, escPassBeat, send_of_txReady h]
    rfl
  · simp only [exec, execEscArg, escArgumentBeat, send_of_txReady h]
    rfl

/-- Settles O16: a blocked `Send` leaves the state as it was. -/
theorem escaperOperationsWait : Obligations.EscaperOperationsWait := by
  intro s ch h i v hi
  have hblocked : ∀ w, send ch w s = none := send_of_not_txReady h
  simp only [List.mem_cons, List.not_mem_nil, or_false] at hi
  obtain rfl | rfl | rfl | rfl := hi
  · simp [exec, execEscPass, escPassBeat, hblocked, orBlocked]
  · simp [exec, execEscPfxD0, escMarkBeat, hblocked, orBlocked]
  · simp [exec, execEscPfxE0, escMarkBeat, hblocked, orBlocked]
  · simp [exec, execEscArg, escArgumentBeat, hblocked, orBlocked]

/-! ### The functions of whole sequences -/

/-- `Escape` byte by byte. -/
theorem escape_eq_flatMap (a : List Byte) :
    escape a = a.flatMap fun v => if v = 0xD0#8 ∨ v = 0xE0#8 then [0xD0#8, v - 1#8] else [v] := by
  induction a with
  | nil => rfl
  | cons v a ih =>
    rw [List.flatMap_cons, ← ih]
    have hv : isReserved v = true ↔ v = 0xD0#8 ∨ v = 0xE0#8 := isReserved_iff v
    by_cases h : v = 0xD0#8 ∨ v = 0xE0#8
    · rw [escape_cons_of_reserved (hv.mpr h), if_pos h]
      rfl
    · rw [escape_cons_of_not_reserved (Bool.eq_false_iff.mpr (mt hv.mp h)), if_neg h]
      rfl

/-- Settles O17: the three functions, each in the form the statement gives it. -/
theorem batchOperations : Obligations.BatchOperations := by
  intro s a
  have hsum : checksum a = a.foldl (fun x y => x + y) 0#8 := by simp [foldl_add_eq_checksum]
  refine ⟨?_, ?_, unescape, rfl, rfl, rfl, unescape_esc_cons, fun r t h => unescape_cons_of_ne_esc h t⟩
  · rw [← escape_eq_flatMap]
    rfl
  · rw [← hsum]
    rfl

/-- The operation of a raw byte's class in body context is the unescaper's beat (R65, R94). -/
theorem exec_decodeBody (r : Byte) (s : State) :
    exec (decodeBody s.escRxPending r) s = .next (unescapeBeat r s) := by
  unfold decodeBody unescapeBeat
  split
  · rfl
  · split <;> rfl

theorem unescapeStepped_cons (r : Byte) (raw : List Byte) (s : State) :
    unescapeStepped (r :: raw) s =
      ((unescapeBeat r s).out.unescaped.toList ++ (unescapeStepped raw (unescapeBeat r s)).1,
        (unescapeStepped raw (unescapeBeat r s)).2) := by
  simp only [unescapeStepped, exec_decodeBody]

/-- The raw sequence with the marker that is outstanding, if any, put back in front of it. -/
def withPending (pending : Bool) (raw : List Byte) : List Byte := if pending then Config.esc :: raw else raw

/-- One beat of the unescaper is the equation of `Unescape` for that byte (R94, R99). -/
theorem unescape_withPending_cons (r : Byte) (raw : List Byte) (s : State) :
    unescape (withPending s.escRxPending (r :: raw)) =
      let rest := unescape (withPending (unescapeBeat r s).escRxPending raw)
      ((unescapeBeat r s).out.unescaped.toList ++ rest.1, rest.2) := by
  rw [unescapeBeat_eq]
  cases hp : s.escRxPending with
  | true => simp [withPending]
  | false =>
    by_cases hr : r = Config.esc
    · simp [withPending, hr]
    · simp [withPending, hr, unescape_cons_of_ne_esc]

/-- The stepped unescaper reads on from its flag (R99). -/
theorem unescapeStepped_eq (raw : List Byte) (s : State) :
    ((unescapeStepped raw s).1, (unescapeStepped raw s).2.escRxPending) =
      unescape (withPending s.escRxPending raw) := by
  induction raw generalizing s with
  | nil => cases hp : s.escRxPending <;> simp [unescapeStepped, unescape, withPending, hp]
  | cons r raw ih => rw [unescape_withPending_cons, ← ih, unescapeStepped_cons]

/-- Settles O19: the stepped form from a state with no marker outstanding. -/
theorem unescapeSteppedIsUnescape : Obligations.UnescapeSteppedIsUnescape := by
  intro raw s h
  have hstepped := unescapeStepped_eq raw s
  rw [h, withPending, if_neg Bool.false_ne_true] at hstepped
  exact ⟨congrArg Prod.fst hstepped, congrArg Prod.snd hstepped⟩

/-! ### The checksum adder -/

/-- Settles O20: addition of bytes is addition modulo 256. -/
theorem checksumOperations : Obligations.ChecksumOperations := by
  intro s b
  refine ⟨rfl, ?_, rfl⟩
  have hadd : s.csum + b = BitVec.ofNat 8 ((s.csum.toNat + b.toNat) % 256) := by
    apply BitVec.eq_of_toNat_eq
    simp [BitVec.toNat_add]
  rw [← hadd]
  rfl

/-- Adding the bytes of a range one after the other adds their checksum to `csum`. -/
theorem execAll_csumAdd (a : List Byte) (is : List Instr) (s : State) :
    execAll (a.map .csumAdd ++ is) s = execAll is { s with csum := s.csum + checksum a } := by
  induction a generalizing s with
  | nil => simp
  | cons x a ih =>
    have hstep : execAll ((x :: a).map .csumAdd ++ is) s = execAll (a.map .csumAdd ++ is) (csumAddByte x s) := rfl
    rw [hstep, ih, checksum_cons, csumAddByte_csum, BitVec.add_assoc]
    rfl

/-- Settles O21: from a cleared register the sum of the range is its checksum. -/
theorem clearAddCompareIsChecksum : Obligations.ClearAddCompareIsChecksum := by
  intro s a cmp
  have hclear : execAll (.csumClr :: (a.map .csumAdd ++ [.csumCmp cmp])) s =
      execAll (a.map .csumAdd ++ [.csumCmp cmp]) (csumClear s) := rfl
  rw [hclear, execAll_csumAdd, csumClear_csum, BitVec.zero_add]
  rfl

/-! ### The arbiter -/

/-- The output `bus_dir` and its event (R150, R151). -/
theorem setBusDir_eq (v : Bool) (s : State) :
    setBusDir v s = { s with busDir := v, now := s.now ++ if s.busDir = v then [] else [.dir v] } := by
  unfold setBusDir
  split
  · rename_i h
    simp [← h]
  · rfl

/-- The output `status` and its event (R153, R154). -/
theorem setStatus_eq (v : Bool) (s : State) :
    setStatus v s = { s with status := v, now := s.now ++ if s.status = v then [] else [.status v] } := by
  unfold setStatus
  split
  · rename_i h
    simp [← h]
  · rfl

/-- Settles O22: an output changes with its event or, if it has the level already, without one. -/
theorem arbiterOperations : Obligations.ArbiterOperations := by
  intro s
  refine ⟨congrArg _ (setBusDir_eq true s), ?_, congrArg _ (setStatus_eq true s), ?_⟩
  · have h := setBusDir_eq false s
    cases hd : s.busDir <;> simp_all [exec, execDirRel]
  · have h := setStatus_eq false s
    cases hs : s.status <;> simp_all [exec, execStatOff]

/-! ### Reports -/

/-- The report primitive by itself: one handshake (log entry 8). -/
theorem exec_diagInstr (d : Diag) (s : State) : exec (diagInstr d) s = .next (report d s) := by
  cases d <;> rfl

/-- A row listed for each of the four causes (R166) is the row of one of them. -/
theorem exists_diag_of_mem {α : Type} (row : Diag → α) {x : α}
    (h : x ∈ [row .startup, row .hostCsum, row .resetAbsorbed, row .busCsum]) : ∃ d, x = row d := by
  simp only [List.mem_cons, List.not_mem_nil, or_false] at h
  obtain rfl | rfl | rfl | rfl := h
  · exact ⟨.startup, rfl⟩
  · exact ⟨.hostCsum, rfl⟩
  · exact ⟨.resetAbsorbed, rfl⟩
  · exact ⟨.busCsum, rfl⟩

theorem Diag.code_eq_four_iff (d : Diag) : d.code = 4#4 ↔ d = .busCsum := by
  cases d <;> decide

/-- Settles O24: a report that is not in progress starts. -/
theorem reportStarts : Obligations.ReportStarts := by
  intro i code st hrow s hidle
  obtain ⟨d, hd⟩ := exists_diag_of_mem (fun d => (diagInstr d, d.code, reportingState d)) hrow
  cases hd
  have hprogress : (s.diagReq && s.diagCode == d.code) = false := by
    rw [Bool.eq_false_iff]
    simpa using hidle
  rw [exec_diagInstr, report, hprogress]
  rfl

/-- The delivery of a report in the words of the statements about it (R178). -/
theorem deliverReport_spec (d : Diag) (s : State) :
    (s.levels.diagDone = true → deliverReport d s =
      { s with
        diagReq := false, state := afterReport d, idx := if d.code = 4#4 then 0#9 else s.idx,
        now := s.now ++ [.diag d.code] }) ∧
    (s.levels.diagDone = false → deliverReport d s = s) := by
  refine ⟨fun h => ?_, deliverReport_waiting⟩
  rw [deliverReport_done h]
  simp only [Diag.code_eq_four_iff]
  rfl

/-- Settles O25: a report in progress is delivered, or waits. -/
theorem reportDelivered : Obligations.ReportDelivered := by
  intro i code st hrow s hreq hcode
  obtain ⟨d, hd⟩ := exists_diag_of_mem (fun d => (diagInstr d, d.code, afterReport d)) hrow
  cases hd
  have hprogress : (s.diagReq && s.diagCode == d.code) = true := by simp [hreq, hcode]
  rw [exec_diagInstr, report, hprogress]
  obtain ⟨hdone, hwait⟩ := deliverReport_spec d s
  exact ⟨fun h => congrArg _ (hdone h), fun h => congrArg _ (hwait h)⟩

end Sys2Proof.Machine
end

section
/-! PROOFS. The shared procedures of 43_frame_relay_fsm.md run forward: one equation for each way in which the input
levels and the byte can stand. -/

namespace Sys2Proof.Machine

/-! ### The step of each kind of state is one shared procedure -/

theorem exec_awaitInstr (ch : Chan) (s : State) : exec (awaitInstr ch) s = .next (huntStep ch s) := by
  cases ch with
  | host => rfl
  | bus => rfl

theorem exec_readInstr (ch : Chan) (s : State) : exec (readInstr ch) s = readStep ch (validateState ch) s := by
  cases ch with
  | host => rfl
  | bus => rfl

theorem exec_bodyInstr (ch : Chan) (s : State) : exec (bodyInstr ch) s = sendLogical ch (flushState ch) s := by
  cases ch with
  | host => rfl
  | bus => rfl

theorem exec_reportingState (d : Diag) (s : State) :
    exec (stepInstr (reportingState d)) s = .next (deliverReport d s) := by
  cases d <;> rfl

/-! ### Taking a byte -/

theorem afterRecv_eq_takenFrom (ch : Chan) (r : Byte) (q : List Byte) (s : State) :
    afterRecv ch r q s = takenFrom ch r q s := by
  cases ch with
  | host => rfl
  | bus => rfl

theorem recv_of_rxValid {ch : Chan} {s : State} {r : Byte} {q : List Byte} (hv : s.rxValid ch = true)
    (hq : s.rxQueue ch = r :: q) : recv ch s = some (r, takenFrom ch r q s) := by
  rw [recv_eq, hv, hq, ← afterRecv_eq_takenFrom]

theorem recv_of_not_rxValid {ch : Chan} {s : State} (hv : s.rxValid ch = false) : recv ch s = none := by
  rw [recv_eq, hv]

/-- A stream that presents a byte has one. -/
theorem rxQueue_of_rxValid {ch : Chan} {s : State} (hv : s.rxValid ch = true) :
    ∃ r q, s.rxQueue ch = r :: q := by
  cases hq : s.rxQueue ch with
  | nil => cases ch <;> simp_all [State.rxValid, State.rxQueue]
  | cons r q => exact ⟨r, q, rfl⟩

/-- The event of a raw byte taken on `ch_rx` (R8). -/
def rxEvent : Chan → Byte → Event
  | .host, b => .hrx b
  | .bus, b => .brx b

section
variable (ch : Chan) (r : Byte) (q : List Byte) (s : State)

@[simp] theorem takenFrom_state : (takenFrom ch r q s).state = s.state := by cases ch <;> rfl
@[simp] theorem takenFrom_buf : (takenFrom ch r q s).buf = s.buf := by cases ch <;> rfl
@[simp] theorem takenFrom_idx : (takenFrom ch r q s).idx = s.idx := by cases ch <;> rfl
@[simp] theorem takenFrom_escRxPending : (takenFrom ch r q s).escRxPending = s.escRxPending := by
  cases ch <;> rfl
@[simp] theorem takenFrom_csum : (takenFrom ch r q s).csum = s.csum := by cases ch <;> rfl
@[simp] theorem takenFrom_escTxPending : (takenFrom ch r q s).escTxPending = s.escTxPending := by
  cases ch <;> rfl
@[simp] theorem takenFrom_busDir : (takenFrom ch r q s).busDir = s.busDir := by cases ch <;> rfl
@[simp] theorem takenFrom_status : (takenFrom ch r q s).status = s.status := by cases ch <;> rfl
@[simp] theorem takenFrom_diagReq : (takenFrom ch r q s).diagReq = s.diagReq := by cases ch <;> rfl
@[simp] theorem takenFrom_diagCode : (takenFrom ch r q s).diagCode = s.diagCode := by cases ch <;> rfl
@[simp] theorem takenFrom_schedule : (takenFrom ch r q s).schedule = s.schedule := by cases ch <;> rfl
@[simp] theorem takenFrom_cycle : (takenFrom ch r q s).cycle = s.cycle := by cases ch <;> rfl
@[simp] theorem takenFrom_now : (takenFrom ch r q s).now = s.now ++ [rxEvent ch r] := by cases ch <;> rfl
@[simp] theorem takenFrom_rxQueue (c : Chan) :
    (takenFrom ch r q s).rxQueue c = if c = ch then q else s.rxQueue c := by
  cases ch <;> cases c <;> rfl
@[simp] theorem takenFrom_trace : (takenFrom ch r q s).trace = s.trace := by cases ch <;> rfl
@[simp] theorem takenFrom_runs : (takenFrom ch r q s).runs = s.runs := by cases ch <;> rfl
@[simp] theorem takenFrom_resetHeld : (takenFrom ch r q s).resetHeld = s.resetHeld := by cases ch <;> rfl
@[simp] theorem takenFrom_out : (takenFrom ch r q s).out = s.out := by cases ch <;> rfl
@[simp] theorem takenFrom_cell (a : Nat) : (takenFrom ch r q s).cell a = s.cell a :=
  State.cell_of_buf (by simp) a
@[simp] theorem takenFrom_written (a : Nat) : (takenFrom ch r q s).written a = s.written a :=
  State.written_of_buf (by simp) a
end

section
variable (s : State) (c : Chan)

@[simp] theorem endCycle_rxQueue : (endCycle s).rxQueue c = s.rxQueue c := by cases c <;> rfl
@[simp] theorem huntFound_rxQueue (ch : Chan) : (huntFound ch s).rxQueue c = s.rxQueue c := by cases c <;> rfl
@[simp] theorem huntSkipped_rxQueue (ch : Chan) : (huntSkipped ch s).rxQueue c = s.rxQueue c := by
  cases c <;> rfl
@[simp] theorem unescMark_rxQueue : (unescMark s).rxQueue c = s.rxQueue c := by cases c <;> rfl
end

/-! ### The hunt -/

theorem huntStep_of_rxValid {ch : Chan} {s : State} {r : Byte} {q : List Byte} (hv : s.rxValid ch = true)
    (hq : s.rxQueue ch = r :: q) :
    huntStep ch s =
      if r = Config.sync then huntFound ch (takenFrom ch r q s) else huntSkipped ch (takenFrom ch r q s) := by
  simp only [huntStep, recv_of_rxValid hv hq]

theorem huntStep_of_not_rxValid {ch : Chan} {s : State} (hv : s.rxValid ch = false) : huntStep ch s = s := by
  simp only [huntStep, recv_of_not_rxValid hv]

/-- Settles O28: either hunt takes the byte, which is the sync byte or is not. -/
theorem huntSteps : Obligations.HuntSteps := by
  intro s r q
  have taken : ∀ ch, s.rxValid ch = true → s.rxQueue ch = r :: q →
      exec (awaitInstr ch) s = .next
        { takenFrom ch r q s with
          idx := if r = 0xE0#8 then 0#9 else s.idx
          state := if r = 0xE0#8 then readState ch else huntState ch } := by
    intro ch hv hq
    rw [exec_awaitInstr, huntStep_of_rxValid hv hq]
    by_cases hr : r = 0xE0#8
    · rw [if_pos hr, if_pos hr, if_pos (show r = Config.sync from hr)]
      rfl
    · rw [if_neg hr, if_neg hr, if_neg (show ¬ r = Config.sync from hr), ← takenFrom_idx ch r q s]
      rfl
  refine ⟨fun hv hq => taken .host ?_ hq, fun hv hq => taken .bus ?_ hq, fun hv => ?_, fun hv => ?_⟩
  · simp [State.rxValid, hv, hq]
  · simp [State.rxValid, hv, hq]
  · exact (exec_awaitInstr .host s).trans (congrArg _ (huntStep_of_not_rxValid hv))
  · exact (exec_awaitInstr .bus s).trans (congrArg _ (huntStep_of_not_rxValid hv))

/-! ### The read steps -/

/-- The raw byte `r`, read with the flag `pending`, gives the logical byte `v` (R95, R97). -/
def givesLogical (pending : Bool) (r v : Byte) : Prop :=
  pending = true ∧ v = r + 1#8 ∨ pending = false ∧ r ≠ Config.esc ∧ v = r

theorem unescapeBeat_of_givesLogical {s : State} {r v : Byte} (h : givesLogical s.escRxPending r v) :
    unescapeBeat r s = { s with escRxPending := false, out := { s.out with unescaped := some v } } := by
  rw [unescapeBeat_eq]
  obtain ⟨hp, rfl⟩ | ⟨hp, hr, rfl⟩ := h
  · simp [hp]
  · simp [hp, hr]

/-- A raw byte either is a marker that starts a pair or gives a logical byte. -/
theorem marker_or_givesLogical (pending : Bool) (r : Byte) :
    (pending = false ∧ r = Config.esc) ∨ ∃ v, givesLogical pending r v := by
  cases pending with
  | true => exact .inr ⟨r + 1#8, .inl ⟨rfl, rfl⟩⟩
  | false =>
    by_cases hr : r = Config.esc
    · exact .inl ⟨rfl, hr⟩
    · exact .inr ⟨r, .inr ⟨rfl, hr, rfl⟩⟩

/-- The state after a raw byte has been taken that gives the logical byte `v`, before the store. -/
def afterLogical (ch : Chan) (r v : Byte) (q : List Byte) (s : State) : State :=
  { takenFrom ch r q s with escRxPending := false, out := { s.out with unescaped := some v } }

theorem idxInBuf_iff {s : State} : s.idxInBuf = true ↔ s.idx.toNat < 257 := decide_eq_true_iff

/-- What becomes of the unescaper's output (R119; log entry 12): nothing, a store, or a fault. -/
def storeUnescaped (next : FsmState) (u : State) : Host.Outcome State Fault Refusal :=
  match u.out.unescaped with
  | none => .next u
  | some v => if u.idx.toNat < 257 then .next (storeLogical v next u) else .fault (.noSuchCell u.idx.toNat)

theorem readStep_of_rxValid {ch : Chan} {next : FsmState} {s : State} {r : Byte} {q : List Byte}
    (hv : s.rxValid ch = true) (hq : s.rxQueue ch = r :: q) :
    readStep ch next s = storeUnescaped next (unescapeBeat r (takenFrom ch r q s)) := by
  simp only [readStep, storeUnescaped, recv_of_rxValid hv hq]
  cases (unescapeBeat r (takenFrom ch r q s)).out.unescaped with
  | none => rfl
  | some v => exact if_congr idxInBuf_iff rfl rfl

theorem readStep_of_not_rxValid {ch : Chan} {next : FsmState} {s : State} (hv : s.rxValid ch = false) :
    readStep ch next s = .next s := by
  simp only [readStep, recv_of_not_rxValid hv]

/-- A marker is noted in the flag (R96). -/
theorem readStep_marker {ch : Chan} {next : FsmState} {s : State} {q : List Byte}
    (hv : s.rxValid ch = true) (hq : s.rxQueue ch = Config.esc :: q) (hp : s.escRxPending = false) :
    readStep ch next s = .next (unescMark (takenFrom ch Config.esc q s)) := by
  have hbeat : unescapeBeat Config.esc (takenFrom ch Config.esc q s) = unescMark (takenFrom ch Config.esc q s) := by
    simp [unescapeBeat, hp]
  rw [readStep_of_rxValid hv hq, hbeat]
  rfl

/-- A logical byte is stored, or there is no cell for it (R119; log entry 12). -/
theorem readStep_logical {ch : Chan} {next : FsmState} {s : State} {r v : Byte} {q : List Byte}
    (hv : s.rxValid ch = true) (hq : s.rxQueue ch = r :: q) (hr : givesLogical s.escRxPending r v) :
    readStep ch next s =
      if s.idx.toNat < 257 then .next (storeLogical v next (afterLogical ch r v q s))
      else .fault (.noSuchCell s.idx.toNat) := by
  have hbeat : unescapeBeat r (takenFrom ch r q s) = afterLogical ch r v q s := by
    rw [unescapeBeat_of_givesLogical (v := v) (by simpa using hr), takenFrom_out]
    rfl
  rw [readStep_of_rxValid hv hq, hbeat]
  simp [storeUnescaped, afterLogical]

/-- Settles O30: the marker's equation, and the step that waits. -/
theorem readStepsPrefixAndWait : Obligations.ReadStepsPrefixAndWait := by
  intro ch s q
  refine ⟨fun hv hq hp => ?_, fun hv => ?_⟩
  · rw [exec_readInstr, readStep_marker hv hq hp, unescMark, takenFrom_out]
    rfl
  · rw [exec_readInstr, readStep_of_not_rxValid hv]

theorem toNat_idx_add_one {i : Index} (h : i.toNat < 257) : (i + 1#9).toNat = i.toNat + 1 := by
  rw [BitVec.toNat_add, BitVec.toNat_ofNat]
  omega

/-- The state after the logical byte `v`, read from `ch`, has been stored (R119). -/
def stored (ch : Chan) (r v : Byte) (q : List Byte) (s : State) : State :=
  storeLogical v (validateState ch) (afterLogical ch r v q s)

section
variable (ch : Chan) (r v : Byte) (q : List Byte) (s : State)

@[simp] theorem stored_buf : (stored ch r v q s).buf = Memory.write s.idx.toNat v s.buf := by
  simp [stored, storeLogical_eq, afterLogical]

@[simp] theorem stored_idx : (stored ch r v q s).idx = s.idx + 1#9 := by
  simp [stored, storeLogical_eq, afterLogical]

@[simp] theorem stored_csum : (stored ch r v q s).csum = s.csum := by simp [stored, storeLogical_eq, afterLogical]
@[simp] theorem stored_escRxPending : (stored ch r v q s).escRxPending = false := by
  simp [stored, storeLogical_eq, afterLogical]
@[simp] theorem stored_escTxPending : (stored ch r v q s).escTxPending = s.escTxPending := by
  simp [stored, storeLogical_eq, afterLogical]
@[simp] theorem stored_busDir : (stored ch r v q s).busDir = s.busDir := by
  simp [stored, storeLogical_eq, afterLogical]
@[simp] theorem stored_status : (stored ch r v q s).status = s.status := by
  simp [stored, storeLogical_eq, afterLogical]
@[simp] theorem stored_diagReq : (stored ch r v q s).diagReq = s.diagReq := by
  simp [stored, storeLogical_eq, afterLogical]
@[simp] theorem stored_diagCode : (stored ch r v q s).diagCode = s.diagCode := by
  simp [stored, storeLogical_eq, afterLogical]
@[simp] theorem stored_rxQueue (c : Chan) : (stored ch r v q s).rxQueue c = if c = ch then q else s.rxQueue c := by
  rw [← takenFrom_rxQueue ch r q s c]
  cases c <;> simp [stored, storeLogical_eq, afterLogical, State.rxQueue]
@[simp] theorem stored_schedule : (stored ch r v q s).schedule = s.schedule := by
  simp [stored, storeLogical_eq, afterLogical]
@[simp] theorem stored_cycle : (stored ch r v q s).cycle = s.cycle := by simp [stored, storeLogical_eq, afterLogical]
@[simp] theorem stored_now : (stored ch r v q s).now = s.now ++ [rxEvent ch r] := by
  simp [stored, storeLogical_eq, afterLogical]
@[simp] theorem stored_trace : (stored ch r v q s).trace = s.trace := by simp [stored, storeLogical_eq, afterLogical]
@[simp] theorem stored_runs : (stored ch r v q s).runs = s.runs := by simp [stored, storeLogical_eq, afterLogical]
@[simp] theorem stored_resetHeld : (stored ch r v q s).resetHeld = s.resetHeld := by
  simp [stored, storeLogical_eq, afterLogical]

theorem stored_cell (a : Nat) : (stored ch r v q s).cell a = if a = s.idx.toNat then v else s.cell a :=
  (State.cell_of_buf (t := s.setCell s.idx.toNat v) (stored_buf ch r v q s) a).trans (State.cell_setCell ..)

theorem stored_written (a : Nat) :
    (stored ch r v q s).written a = (decide (a = s.idx.toNat) || s.written a) :=
  (State.written_of_buf (t := s.setCell s.idx.toNat v) (stored_buf ch r v q s) a).trans
    (State.written_setCell ..)

variable {s}

/-- The whole update of a store: the completion test is on `length` as it stands after it. -/
theorem stored_eq (hi : s.idx.toNat < 257) :
    stored ch r v q s =
      { takenFrom ch r q s with
        buf := (stored ch r v q s).buf
        idx := s.idx + 1#9
        escRxPending := false
        out := { s.out with unescaped := some v }
        state :=
          if 2 ≤ s.idx.toNat + 1 ∧ s.idx.toNat + 1 = ((stored ch r v q s).cell 1).toNat + 2 then validateState ch
          else s.state } := by
  have hi' : (afterLogical ch r v q s).idx.toNat < Config.bufCap := by simpa [afterLogical, Config.bufCap] using hi
  have hcell : (storeByte v (afterLogical ch r v q s)).cell 1 = (stored ch r v q s).cell 1 :=
    State.cell_of_buf (by simp [storeByte, afterLogical]) 1
  have hcomplete := storeByte_frameComplete hi' v
  rw [hcell] at hcomplete
  conv_lhs => rw [stored, storeLogical_eq, hcomplete]
  simp [afterLogical]

theorem stored_state (hi : s.idx.toNat < 257) :
    (stored ch r v q s).state =
      if 2 ≤ s.idx.toNat + 1 ∧ s.idx.toNat + 1 = ((stored ch r v q s).cell 1).toNat + 2 then validateState ch
      else s.state := congrArg State.state (stored_eq ch r v q hi)
end

/-- Settles O29: the logical byte's equation, with the completion test in numbers. -/
theorem readStepsStore : Obligations.ReadStepsStore := by
  intro ch s r v q hv hq hi hr
  refine ⟨stored ch r v q s, ?_, stored_eq ch r v q hi, stored_cell ch r v q s, stored_written ch r v q s,
    fun hwf => ?_⟩
  · rw [exec_readInstr, readStep_logical hv hq hr, if_pos hi]
    rfl
  · rw [stored_buf]
    exact Memory.wf_write hi v hwf

/-! ### The validate steps -/

section
variable (s : State)

@[simp] theorem checkFrame_state : (checkFrame s).state = s.state := by rw [checkFrame_eq]
@[simp] theorem checkFrame_buf : (checkFrame s).buf = s.buf := by rw [checkFrame_eq]
@[simp] theorem checkFrame_idx : (checkFrame s).idx = s.idx := by rw [checkFrame_eq]
@[simp] theorem checkFrame_escRxPending : (checkFrame s).escRxPending = s.escRxPending := by rw [checkFrame_eq]
@[simp] theorem checkFrame_escTxPending : (checkFrame s).escTxPending = s.escTxPending := by rw [checkFrame_eq]
@[simp] theorem checkFrame_busDir : (checkFrame s).busDir = s.busDir := by rw [checkFrame_eq]
@[simp] theorem checkFrame_status : (checkFrame s).status = s.status := by rw [checkFrame_eq]
@[simp] theorem checkFrame_diagReq : (checkFrame s).diagReq = s.diagReq := by rw [checkFrame_eq]
@[simp] theorem checkFrame_diagCode : (checkFrame s).diagCode = s.diagCode := by rw [checkFrame_eq]
@[simp] theorem checkFrame_hostRx : (checkFrame s).hostRx = s.hostRx := by rw [checkFrame_eq]
@[simp] theorem checkFrame_busRx : (checkFrame s).busRx = s.busRx := by rw [checkFrame_eq]
@[simp] theorem checkFrame_schedule : (checkFrame s).schedule = s.schedule := by rw [checkFrame_eq]
@[simp] theorem checkFrame_cycle : (checkFrame s).cycle = s.cycle := by rw [checkFrame_eq]
@[simp] theorem checkFrame_now : (checkFrame s).now = s.now := by rw [checkFrame_eq]
@[simp] theorem checkFrame_trace : (checkFrame s).trace = s.trace := by rw [checkFrame_eq]
@[simp] theorem checkFrame_runs : (checkFrame s).runs = s.runs := by rw [checkFrame_eq]
@[simp] theorem checkFrame_resetHeld : (checkFrame s).resetHeld = s.resetHeld := by rw [checkFrame_eq]
@[simp] theorem checkFrame_cell (a : Nat) : (checkFrame s).cell a = s.cell a := State.cell_of_buf (by simp) a
end

/-- The state after the checksum part of a validate step (R121, R133). -/
theorem checkFrame_decide (s : State) :
    checkFrame s =
      { s with
        csum := checksum ((List.range ((s.cell 1).toNat + 1)).map s.cell)
        out := { s.out with
          equal := decide (checksum ((List.range ((s.cell 1).toNat + 1)).map s.cell) =
            s.cell ((s.cell 1).toNat + 1)) } } :=
  checkFrame_eq s

theorem isResetBroadcast_iff (p0 p1 : Byte) (s : State) :
    isResetBroadcast p0 p1 s = true ↔ s.cell 0 = 0xFF#8 ∧ s.cell 1 = 3#8 ∧ s.cell 2 = p0 ∧ s.cell 3 = p1 := by
  simp [isResetBroadcast, State.node, State.length, Config.broadcast, and_assoc]

/-- The forward branch of host validation as one update (R123). -/
theorem forwardHost_eq (s : State) :
    forwardHost s =
      { s with
        busDir := true, status := true, idx := 0#9, state := .txBusSync
        now := s.now ++ (if s.busDir then [] else [.dir true]) ++ (if s.status then [] else [.status true]) } := by
  simp [forwardHost, setStatus_eq, setBusDir_eq]

/-- Settles O32: the three branches of the decision, each on the checked state. -/
theorem validateHostStep : Obligations.ValidateHostStep := by
  intro s len sum c reset
  have hcheck : checkFrame s = c := checkFrame_decide s
  have hexec : exec .stValidateHost s = .next
      (if c.out.equal then
        if isResetBroadcast Config.resetP0 Config.resetP1 c then startReport .resetAbsorbed c else forwardHost c
      else startReport .hostCsum c) := by
    rw [← hcheck]
    rfl
  have hreset : isResetBroadcast Config.resetP0 Config.resetP1 c = true ↔ reset := isResetBroadcast_iff _ _ c
  have hequal : c.out.equal = true ↔ sum = s.cell (len + 1) := decide_eq_true_iff
  rw [hexec]
  refine ⟨fun hsum => ?_, fun hsum hr => ?_, fun hsum hr => ?_⟩
  · rw [if_neg (mt hequal.mp hsum)]
    rfl
  · rw [if_pos (hequal.mpr hsum), if_pos (hreset.mpr hr)]
    rfl
  · rw [if_pos (hequal.mpr hsum), if_neg (mt hreset.mp hr), forwardHost_eq]

/-- Settles O33: the two branches of the decision, each on the checked state. -/
theorem validateBusStep : Obligations.ValidateBusStep := by
  intro s len sum c
  have hcheck : checkFrame s = c := checkFrame_decide s
  have hexec : exec .stValidateBus s = .next
      (if c.out.equal then { c with idx := 0#9, state := .txHostSync } else startReport .busCsum c) := by
    rw [← hcheck]
    rfl
  have hequal : c.out.equal = true ↔ sum = s.cell (len + 1) := decide_eq_true_iff
  rw [hexec]
  refine ⟨fun hsum => ?_, fun hsum => ?_⟩
  · rw [if_pos (hequal.mpr hsum)]
  · rw [if_neg (mt hequal.mp hsum)]
    rfl

/-! ### The body-transmit steps -/

theorem sendLogical_of_lt {s : State} (h : s.idx.toNat < 257) (ch : Chan) (next : FsmState) :
    sendLogical ch next s = .next (orBlocked s ((escapeBeat ch s.current s).map (afterBeat next))) := by
  have hin : s.idxInBuf = true := idxInBuf_iff.mpr h
  rw [sendLogical, hin]
  rfl

theorem sendLogical_of_not_lt {s : State} (h : 257 ≤ s.idx.toNat) (ch : Chan) (next : FsmState) :
    sendLogical ch next s = .fault (.noSuchCell s.idx.toNat) := by
  have hout : s.idxInBuf = false := decide_eq_false (Nat.not_lt.mpr h)
  rw [sendLogical, hout]
  rfl

theorem sendLogical_of_not_txReady {ch : Chan} {s : State} (hr : s.txReady ch = false) (h : s.idx.toNat < 257)
    (next : FsmState) : sendLogical ch next s = .next s := by
  rw [sendLogical_of_lt h, escapeBeat_eq, hr]
  rfl

/-- The first beat of a pair: the byte is not finished (R87, R127). -/
theorem sendLogical_marker {ch : Chan} {s : State} (hr : s.txReady ch = true) (h : s.idx.toNat < 257)
    (hp : s.escTxPending = false) (hv : isReserved s.current = true) (next : FsmState) :
    sendLogical ch next s = .next
      { s with
        now := s.now ++ [txEvent ch 0xD0#8], escTxPending := true, out := { s.out with advance := false } } := by
  rw [sendLogical_of_lt h, escapeBeat_eq]
  simp [hr, hp, hv, orBlocked, afterBeat, escaperByte, Config.esc, State.emit]

/-- The beat that finishes a byte (R86, R88, R127). -/
theorem sendLogical_last {ch : Chan} {s : State} (hr : s.txReady ch = true) (h : s.idx.toNat < 257)
    (hv : s.escTxPending = true ∨ isReserved s.current = false) (next : FsmState) :
    sendLogical ch next s = .next
      { s with
        now := s.now ++ [txEvent ch (if s.escTxPending then s.current - 1#8 else s.current)]
        escTxPending := false, idx := s.idx + 1#9
        state := if s.idx.toNat + 1 = (s.cell 1).toNat + 2 then next else s.state
        out := { s.out with advance := true } } := by
  have hbeat : escapeBeat ch s.current s = some
      { s with
        now := s.now ++ [txEvent ch (if s.escTxPending then s.current - 1#8 else s.current)]
        escTxPending := false, out := { s.out with advance := true } } := by
    rw [escapeBeat_eq, hr]
    obtain hp | hfree := hv
    · simp [hp, escaperByte, State.emit]
    · cases hp : s.escTxPending <;> simp [hp, hfree, escaperByte, State.emit]
  have hlast : s.idx + 1#9 = s.frameSize ↔ s.idx.toNat + 1 = (s.cell 1).toNat + 2 := lastByte_iff h
  rw [sendLogical_of_lt h, hbeat]
  simp only [orBlocked, Option.map_some, Option.getD_some]
  rw [afterBeat_advance rfl]
  simp only [← hlast]
  rfl

/-- Settles O35: the second beat of a pair, the first, the byte itself, or the wait. -/
theorem bodySteps : Obligations.BodySteps := by
  intro ch s hidx v next
  have hreserved : isReserved v = true ↔ v = 0xD0#8 ∨ v = 0xE0#8 := isReserved_iff v
  rw [exec_bodyInstr]
  refine ⟨fun hr hp => ?_, fun hr hp hv => ?_, fun hr hp hv => ?_, fun hr => ?_⟩
  · rw [sendLogical_last hr hidx (.inl hp), hp]
    rfl
  · exact sendLogical_marker hr hidx hp (hreserved.mpr hv) _
  · rw [sendLogical_last hr hidx (.inr (Bool.eq_false_iff.mpr (mt hreserved.mp hv)))]
    simp only [hp]
    rfl
  · exact sendLogical_of_not_txReady hr hidx _

/-! ### The flush steps -/

theorem flush_of_txIdle {ch : Chan} {s : State} (h : s.txIdle ch = true) :
    flush ch s = some (s.emit (flushEvent ch)) := if_pos h

theorem flush_of_not_txIdle {ch : Chan} {s : State} (h : s.txIdle ch = false) : flush ch s = none := by
  simp [flush, h]

/-- The event of an output that falls, if it was 1. -/
theorem fallEvent_eq (b : Bool) (e : Event) :
    (if b = false then ([] : List Event) else [e]) = if b = true then [e] else [] := by
  cases b <;> rfl

/-- The state after `ch` has been flushed: the channel's output falls (R130, R137). -/
def afterFlush : Chan → State → State
  | .host, s =>
    { s with
      status := false, state := .awaitHostSync
      now := s.now ++ .hflush :: if s.status then [.status false] else [] }
  | .bus, s =>
    { s with
      busDir := false, state := .awaitBusSync
      now := s.now ++ .bflush :: if s.busDir then [.dir false] else [] }

section
variable (ch : Chan) (s : State)

@[simp] theorem afterFlush_state : (afterFlush ch s).state = huntState ch := by cases ch <;> rfl
@[simp] theorem afterFlush_rxQueue (c : Chan) : (afterFlush ch s).rxQueue c = s.rxQueue c := by cases ch <;> rfl
@[simp] theorem afterFlush_schedule : (afterFlush ch s).schedule = s.schedule := by cases ch <;> rfl
@[simp] theorem afterFlush_cycle : (afterFlush ch s).cycle = s.cycle := by cases ch <;> rfl
@[simp] theorem afterFlush_trace : (afterFlush ch s).trace = s.trace := by cases ch <;> rfl
@[simp] theorem afterFlush_runs : (afterFlush ch s).runs = s.runs := by cases ch <;> rfl
@[simp] theorem afterFlush_resetHeld : (afterFlush ch s).resetHeld = s.resetHeld := by cases ch <;> rfl
end

theorem exec_flushState_of_txIdle {ch : Chan} {s : State} (h : s.txIdle ch = true) :
    exec (stepInstr (flushState ch)) s = .next (afterFlush ch s) := by
  cases ch with
  | host =>
    have hexec : exec (stepInstr (flushState .host)) s = execStTxHostFlush s := rfl
    rw [hexec, execStTxHostFlush, flush_of_txIdle h]
    simp [orBlocked, setStatus_eq, State.emit, flushEvent, fallEvent_eq, afterFlush]
  | bus =>
    have hexec : exec (stepInstr (flushState .bus)) s = execStTxBusFlush s := rfl
    rw [hexec, execStTxBusFlush, flush_of_txIdle h]
    simp [orBlocked, setBusDir_eq, State.emit, flushEvent, fallEvent_eq, afterFlush]

theorem exec_flushState_of_not_txIdle {ch : Chan} {s : State} (h : s.txIdle ch = false) :
    exec (stepInstr (flushState ch)) s = .next s := by
  cases ch with
  | host =>
    have hexec : exec (stepInstr (flushState .host)) s = execStTxHostFlush s := rfl
    rw [hexec, execStTxHostFlush, flush_of_not_txIdle h]
    rfl
  | bus =>
    have hexec : exec (stepInstr (flushState .bus)) s = execStTxBusFlush s := rfl
    rw [hexec, execStTxBusFlush, flush_of_not_txIdle h]
    rfl

/-- Settles O36: on either channel the flush and the fall of the output are one update, or the flush is blocked. -/
theorem flushSteps : Obligations.FlushSteps := fun s =>
  ⟨exec_flushState_of_txIdle (ch := .bus) (s := s), exec_flushState_of_not_txIdle (ch := .bus),
    exec_flushState_of_txIdle (ch := .host) (s := s), exec_flushState_of_not_txIdle (ch := .host)⟩

/-! ### The steps run the operation of their byte's class -/

theorem exec_decodeHunt (ch : Chan) (r : Byte) (s : State) :
    exec (decodeHunt ch r) s = .next (if r = Config.sync then huntFound ch s else huntSkipped ch s) := by
  unfold decodeHunt
  split <;> rfl

theorem exec_decodeTx (ch : Chan) (v : Byte) (s : State) :
    exec (decodeTx ch s.escTxPending v) s = .next (orBlocked s (escapeBeat ch v s)) := by
  unfold decodeTx escapeBeat
  cases hp : s.escTxPending with
  | true => rfl
  | false =>
    by_cases hesc : v = Config.esc
    · rw [if_neg Bool.false_ne_true, if_pos hesc, if_neg Bool.false_ne_true,
        if_pos ((isReserved_iff v).mpr (.inl hesc))]
      rfl
    · by_cases hsync : v = Config.sync
      · rw [if_neg Bool.false_ne_true, if_neg hesc, if_pos hsync, if_neg Bool.false_ne_true,
          if_pos ((isReserved_iff v).mpr (.inr hsync))]
        rfl
      · rw [if_neg Bool.false_ne_true, if_neg hesc, if_neg hsync, if_neg Bool.false_ne_true,
          if_neg (mt (isReserved_iff v).mp (not_or.mpr ⟨hesc, hsync⟩))]
        rfl

/-- Settles O37: the hunts, the read steps and the body-transmit steps against the operations of their classes. -/
theorem stepsRunTheByteClass : Obligations.StepsRunTheByteClass := by
  intro ch s
  refine ⟨fun r q hv hq => ⟨?_, unescapeBeat r (takenFrom ch r q s), ?_, ?_⟩, fun hr hidx =>
    ⟨orBlocked s (escapeBeat ch s.current s), exec_decodeTx ch s.current s, ?_⟩⟩
  · rw [exec_awaitInstr, huntStep_of_rxValid hv hq, exec_decodeHunt]
  · rw [← exec_decodeBody, takenFrom_escRxPending]
  · rw [exec_readInstr, readStep_of_rxValid hv hq]
    rfl
  · rw [exec_bodyInstr, sendLogical_of_lt hidx, escapeBeat_eq, hr]
    rfl

end Sys2Proof.Machine
end

section
/-! PROOFS. What a step of the relay can do, said once: it waits for its primitive, or it fires in one of the ways of
43_frame_relay_fsm.md section 3. -/

namespace Sys2Proof.Machine

/-- The state in which the sync byte is sent on `ch` (R128, R135). -/
def syncState : Chan → FsmState
  | .host => .txHostSync
  | .bus => .txBusSync

/-- The 16 states by what they do: one case for each procedure of the relay. -/
theorem FsmState.byKind {P : FsmState → Prop} (report : ∀ d, P (reportingState d)) (hunt : ∀ ch, P (huntState ch))
    (read : ∀ ch, P (readState ch)) (validateHost : P .validateHost) (validateBus : P .validateBus)
    (sync : ∀ ch, P (syncState ch)) (body : ∀ ch, P (bodyState ch)) (flush : ∀ ch, P (flushState ch)) :
    ∀ st, P st
  | .startup => report .startup
  | .discard => report .hostCsum
  | .absorb => report .resetAbsorbed
  | .reportBusCsum => report .busCsum
  | .awaitHostSync => hunt .host
  | .awaitBusSync => hunt .bus
  | .readHost => read .host
  | .readBus => read .bus
  | .validateHost => validateHost
  | .validateBus => validateBus
  | .txHostSync => sync .host
  | .txBusSync => sync .bus
  | .txHostBody => body .host
  | .txBusBody => body .bus
  | .txHostFlush => flush .host
  | .txBusFlush => flush .bus

section
variable (ch : Chan) (s : State)

theorem exec_huntState : exec (stepInstr (huntState ch)) s = .next (huntStep ch s) := by cases ch <;> rfl
theorem exec_readState : exec (stepInstr (readState ch)) s = readStep ch (validateState ch) s := by cases ch <;> rfl
theorem exec_syncState : exec (stepInstr (syncState ch)) s = .next (sendSync ch (bodyState ch) s) := by
  cases ch <;> rfl
theorem exec_bodyState : exec (stepInstr (bodyState ch)) s = sendLogical ch (flushState ch) s := by cases ch <;> rfl
end

/-- The primitive that the step of `st` waits for is blocked (R203). -/
inductive Waits (st : FsmState) (s : State) : Prop where
  | report (d : Diag) (hst : st = reportingState d) (hd : s.levels.diagDone = false)
  | byte (ch : Chan) (hst : st = huntState ch ∨ st = readState ch) (hv : s.rxValid ch = false)
  | sink (ch : Chan) (hst : st = syncState ch ∨ st = bodyState ch)
      (hi : isSendingBody st = true → s.idx.toNat < 257) (hr : s.txReady ch = false)
  | flush (ch : Chan) (hst : st = flushState ch) (hi : s.txIdle ch = false)

/-- The step of `st`, run in `s`, fires: each way in which it can, and the state it leaves. -/
inductive Fires (st : FsmState) (s : State) : State → Prop where
  | delivered (d : Diag) (hst : st = reportingState d) (hd : s.levels.diagDone = true) :
      Fires st s
        { s with
          diagReq := false, state := afterReport d, idx := if d = .busCsum then 0#9 else s.idx,
          now := s.now ++ [.diag d.code] }
  | found (ch : Chan) (q : List Byte) (hst : st = huntState ch) (hv : s.rxValid ch = true)
      (hq : s.rxQueue ch = Config.sync :: q) :
      Fires st s (huntFound ch (takenFrom ch Config.sync q s))
  | skipped (ch : Chan) (r : Byte) (q : List Byte) (hst : st = huntState ch) (hv : s.rxValid ch = true)
      (hq : s.rxQueue ch = r :: q) (hr : r ≠ Config.sync) :
      Fires st s (huntSkipped ch (takenFrom ch r q s))
  | marked (ch : Chan) (q : List Byte) (hst : st = readState ch) (hv : s.rxValid ch = true)
      (hq : s.rxQueue ch = Config.esc :: q) (hp : s.escRxPending = false) :
      Fires st s (unescMark (takenFrom ch Config.esc q s))
  | stored (ch : Chan) (r v : Byte) (q : List Byte) (hst : st = readState ch) (hv : s.rxValid ch = true)
      (hq : s.rxQueue ch = r :: q) (hr : givesLogical s.escRxPending r v) (hi : s.idx.toNat < 257) :
      Fires st s (stored ch r v q s)
  | dropped (hst : st = .validateHost) (hc : (checkFrame s).out.equal = false) :
      Fires st s (startReport .hostCsum (checkFrame s))
  | absorbed (hst : st = .validateHost) (hc : (checkFrame s).out.equal = true)
      (hb : isResetBroadcast Config.resetP0 Config.resetP1 (checkFrame s) = true) :
      Fires st s (startReport .resetAbsorbed (checkFrame s))
  | forwarded (hst : st = .validateHost) (hc : (checkFrame s).out.equal = true)
      (hb : isResetBroadcast Config.resetP0 Config.resetP1 (checkFrame s) = false) :
      Fires st s (forwardHost (checkFrame s))
  | rightReply (hst : st = .validateBus) (hc : (checkFrame s).out.equal = true) :
      Fires st s { checkFrame s with idx := 0#9, state := .txHostSync }
  | wrongReply (hst : st = .validateBus) (hc : (checkFrame s).out.equal = false) :
      Fires st s (startReport .busCsum (checkFrame s))
  | syncSent (ch : Chan) (hst : st = syncState ch) (hr : s.txReady ch = true) :
      Fires st s { s with state := bodyState ch, now := s.now ++ [txEvent ch 0xE0#8] }
  | markerSent (ch : Chan) (hst : st = bodyState ch) (hr : s.txReady ch = true) (hi : s.idx.toNat < 257)
      (hp : s.escTxPending = false) (hv : isReserved s.current = true) :
      Fires st s
        { s with
          now := s.now ++ [txEvent ch 0xD0#8], escTxPending := true, out := { s.out with advance := false } }
  | byteSent (ch : Chan) (hst : st = bodyState ch) (hr : s.txReady ch = true) (hi : s.idx.toNat < 257)
      (hv : s.escTxPending = true ∨ isReserved s.current = false) :
      Fires st s
        { s with
          now := s.now ++ [txEvent ch (if s.escTxPending then s.current - 1#8 else s.current)]
          escTxPending := false, idx := s.idx + 1#9
          state := if s.idx.toNat + 1 = (s.cell 1).toNat + 2 then flushState ch else s.state
          out := { s.out with advance := true } }
  | flushed (ch : Chan) (hst : st = flushState ch) (hi : s.txIdle ch = true) : Fires st s (afterFlush ch s)

/-- The decision of host validation (R121, R175). -/
theorem exec_validateHost (s : State) :
    exec (stepInstr .validateHost) s = .next
      (if (checkFrame s).out.equal then
        if isResetBroadcast Config.resetP0 Config.resetP1 (checkFrame s) then
          startReport .resetAbsorbed (checkFrame s)
        else forwardHost (checkFrame s)
      else startReport .hostCsum (checkFrame s)) := rfl

/-- The decision of bus validation (R133). -/
theorem exec_validateBus (s : State) :
    exec (stepInstr .validateBus) s = .next
      (if (checkFrame s).out.equal then { checkFrame s with idx := 0#9, state := .txHostSync }
      else startReport .busCsum (checkFrame s)) := rfl

@[simp] theorem isSendingBody_bodyState (ch : Chan) : isSendingBody (bodyState ch) = true := by cases ch <;> rfl

/-- A step whose primitive is blocked answers the state as it was (R7). -/
theorem exec_of_waits {st : FsmState} {s : State} (h : Waits st s) : exec (stepInstr st) s = .next s := by
  cases h with
  | report d hst hd => rw [hst, exec_reportingState, deliverReport_waiting hd]
  | byte ch hst hv =>
    obtain rfl | rfl := hst
    · rw [exec_huntState, huntStep_of_not_rxValid hv]
    · rw [exec_readState, readStep_of_not_rxValid hv]
  | sink ch hst hi hr =>
    obtain rfl | rfl := hst
    · rw [exec_syncState, sendSync_of_not_txReady hr]
    · rw [exec_bodyState, sendLogical_of_not_txReady hr (hi (isSendingBody_bodyState ch))]
  | flush ch hst hi => rw [hst, exec_flushState_of_not_txIdle hi]

/-- A step that fires answers the state it leaves. -/
theorem exec_of_fires {st : FsmState} {s t : State} (h : Fires st s t) : exec (stepInstr st) s = .next t := by
  cases h with
  | delivered d hst hd => rw [hst, exec_reportingState, deliverReport_done hd]; rfl
  | found ch q hst hv hq => rw [hst, exec_huntState, huntStep_of_rxValid hv hq, if_pos rfl]
  | skipped ch r q hst hv hq hr => rw [hst, exec_huntState, huntStep_of_rxValid hv hq, if_neg hr]
  | marked ch q hst hv hq hp => rw [hst, exec_readState, readStep_marker hv hq hp]
  | stored ch r v q hst hv hq hr hi => rw [hst, exec_readState, readStep_logical hv hq hr, if_pos hi]; rfl
  | dropped hst hc => rw [hst, exec_validateHost, hc]; rfl
  | absorbed hst hc hb => rw [hst, exec_validateHost, hc, hb]; rfl
  | forwarded hst hc hb => rw [hst, exec_validateHost, hc, hb]; rfl
  | rightReply hst hc => rw [hst, exec_validateBus, hc]; rfl
  | wrongReply hst hc => rw [hst, exec_validateBus, hc]; rfl
  | syncSent ch hst hr => rw [hst, exec_syncState, sendSync_of_txReady hr]
  | markerSent ch hst hr hi hp hv => rw [hst, exec_bodyState, sendLogical_marker hr hi hp hv]
  | byteSent ch hst hr hi hv => rw [hst, exec_bodyState, sendLogical_last hr hi hv]
  | flushed ch hst hi => rw [hst, exec_flushState_of_txIdle hi]

/-- The states whose step stores to or loads from the cell at `idx` (R119, R127). -/
def needsCell (st : FsmState) : Bool := isReading st || isSendingBody st

/-- Every step waits, fires, or faults because it needs a cell that does not exist (log entry 12). -/
theorem waits_or_fires_or_faults (st : FsmState) (s : State) :
    Waits st s ∨ (∃ t, Fires st s t) ∨
      (needsCell st = true ∧ 257 ≤ s.idx.toNat ∧
        exec (stepInstr st) s = .fault (.noSuchCell s.idx.toNat)) := by
  induction st using FsmState.byKind with
  | report d =>
    cases hd : s.levels.diagDone with
    | false => exact .inl (.report d rfl hd)
    | true => exact .inr (.inl ⟨_, .delivered d rfl hd⟩)
  | hunt ch =>
    cases hv : s.rxValid ch with
    | false => exact .inl (.byte ch (.inl rfl) hv)
    | true =>
      obtain ⟨r, q, hq⟩ := rxQueue_of_rxValid hv
      by_cases hr : r = Config.sync
      · exact .inr (.inl ⟨_, .found ch q rfl hv (hr ▸ hq)⟩)
      · exact .inr (.inl ⟨_, .skipped ch r q rfl hv hq hr⟩)
  | read ch =>
    cases hv : s.rxValid ch with
    | false => exact .inl (.byte ch (.inr rfl) hv)
    | true =>
      obtain ⟨r, q, hq⟩ := rxQueue_of_rxValid hv
      obtain ⟨hp, hr⟩ | ⟨v, hr⟩ := marker_or_givesLogical s.escRxPending r
      · exact .inr (.inl ⟨_, .marked ch q rfl hv (hr ▸ hq) hp⟩)
      · by_cases hi : s.idx.toNat < 257
        · exact .inr (.inl ⟨_, .stored ch r v q rfl hv hq hr hi⟩)
        · refine .inr (.inr ⟨by cases ch <;> rfl, Nat.le_of_not_lt hi, ?_⟩)
          rw [exec_readState, readStep_logical hv hq hr, if_neg hi]
  | validateHost =>
    cases hc : (checkFrame s).out.equal with
    | false => exact .inr (.inl ⟨_, .dropped rfl hc⟩)
    | true =>
      cases hb : isResetBroadcast Config.resetP0 Config.resetP1 (checkFrame s) with
      | false => exact .inr (.inl ⟨_, .forwarded rfl hc hb⟩)
      | true => exact .inr (.inl ⟨_, .absorbed rfl hc hb⟩)
  | validateBus =>
    cases hc : (checkFrame s).out.equal with
    | false => exact .inr (.inl ⟨_, .wrongReply rfl hc⟩)
    | true => exact .inr (.inl ⟨_, .rightReply rfl hc⟩)
  | sync ch =>
    cases hr : s.txReady ch with
    | false => exact .inl (.sink ch (.inl rfl) (by cases ch <;> exact nofun) hr)
    | true => exact .inr (.inl ⟨_, .syncSent ch rfl hr⟩)
  | body ch =>
    by_cases hi : s.idx.toNat < 257
    · cases hr : s.txReady ch with
      | false => exact .inl (.sink ch (.inr rfl) (fun _ => hi) hr)
      | true =>
        cases hp : s.escTxPending with
        | true => exact .inr (.inl ⟨_, .byteSent ch rfl hr hi (.inl hp)⟩)
        | false =>
          cases hv : isReserved s.current with
          | true => exact .inr (.inl ⟨_, .markerSent ch rfl hr hi hp hv⟩)
          | false => exact .inr (.inl ⟨_, .byteSent ch rfl hr hi (.inr hv)⟩)
    · have hi := Nat.le_of_not_lt hi
      exact .inr (.inr ⟨by cases ch <;> rfl, hi, by rw [exec_bodyState, sendLogical_of_not_lt hi]⟩)
  | flush ch =>
    cases hi : s.txIdle ch with
    | false => exact .inl (.flush ch rfl hi)
    | true => exact .inr (.inl ⟨_, .flushed ch rfl hi⟩)

/-- THE INVERSION of the relay's steps: a next state comes from a step that waits or from one that fires. -/
theorem exec_fires {st : FsmState} {s t : State} (h : exec (stepInstr st) s = .next t) :
    (Waits st s ∧ t = s) ∨ Fires st s t := by
  obtain hw | ⟨u, hf⟩ | ⟨_, _, hfault⟩ := waits_or_fires_or_faults st s
  · rw [exec_of_waits hw] at h
    cases h
    exact .inl ⟨hw, rfl⟩
  · rw [exec_of_fires hf] at h
    cases h
    exact .inr hf
  · rw [hfault] at h
    cases h

/-- What a cycle can answer: reset, a wait, or a firing, with the end of the cycle. -/
theorem step_fires {s t : State} (h : step s = .next t) :
    (s.levels.rst = true ∧ t = endReset (resetBlock s)) ∨
    (s.levels.rst = false ∧ Waits s.state s ∧ t = endCycle s) ∨
    (s.levels.rst = false ∧ ∃ u, Fires s.state s u ∧ t = endCycle u) := by
  obtain hreset | ⟨hrst, u, hexec, rfl⟩ := step_cases h
  · exact .inl hreset
  · obtain ⟨hw, rfl⟩ | hf := exec_fires hexec
    · exact .inr (.inl ⟨hrst, hw, rfl⟩)
    · exact .inr (.inr ⟨hrst, u, hf, rfl⟩)

theorem step_of_rst {s : State} (h : s.levels.rst = true) : step s = .next (endReset (resetBlock s)) := by
  rw [step, h, if_pos rfl]

theorem step_of_not_rst {s : State} (h : s.levels.rst = false) :
    step s = finishCycle (exec (stepInstr s.state) s) := by
  rw [step, h, if_neg Bool.false_ne_true, fetchInstr_eq]

theorem step_of_waits {s : State} (h : s.levels.rst = false) (hw : Waits s.state s) :
    step s = .next (endCycle s) := by
  rw [step_of_not_rst h, exec_of_waits hw]
  rfl

theorem step_of_fires {s u : State} (h : s.levels.rst = false) (hf : Fires s.state s u) :
    step s = .next (endCycle u) := by
  rw [step_of_not_rst h, exec_of_fires hf]
  rfl

end Sys2Proof.Machine
end

section
/-! PROOFS. The invariant of the reachable states (10_state.md, 20_memory.md section 4): its three parts, each kept by
every way in which a step fires. -/

namespace Sys2Proof.Machine

/-! ### The invariant in parts -/

/-- The part of the invariant about the two flags (R30, R88). -/
structure Flagged (s : State) : Prop where
  esc_rx : s.escRxPending = true → isReading s.state = true
  esc_tx : s.escTxPending = true → isSendingBody s.state = true
  esc_tx_byte : s.escTxPending = true → isReserved s.current = true

/-- The part of the invariant about the outputs (R19, R152, R155). -/
structure Driven (s : State) : Prop where
  bus_dir : s.busDir = inBusWindow s.state
  status_window : s.status = inStatusWindow s.state
  diag_req : s.diagReq = (reportOf s.state).isSome
  diag_code : ∀ d, reportOf s.state = some d → s.diagCode = d.code
  diag_range : 1 ≤ s.diagCode.toNat ∧ s.diagCode.toNat ≤ 4

/-- The part of the invariant about the buffer and `idx` (R13, R44, R45, R119, R120, R127). -/
structure Framed (s : State) : Prop where
  buf_wf : Memory.wf s.buf = true
  idx_le : s.idx.toNat ≤ Config.bufCap
  startup_idx : s.state = .startup → s.idx.toNat = 0
  reading_written : isReading s.state = true → ∀ a, a < s.idx.toNat → s.written a = true
  reading_open : isReading s.state = true → s.idx.toNat < 2 ∨ s.idx.toNat < s.length.toNat + 2
  frame_written : holdsFrame s.state = true → ∀ a, a < s.length.toNat + 2 → s.written a = true
  frame_end : isAtFrameEnd s.state = true → s.idx.toNat = s.length.toNat + 2
  sync_idx : isSendingSync s.state = true → s.idx.toNat = 0
  body_idx : isSendingBody s.state = true → s.idx.toNat < s.length.toNat + 2

theorem Inv.flagged {s : State} (h : Inv s) : Flagged s := ⟨h.esc_rx, h.esc_tx, h.esc_tx_byte⟩

theorem Inv.driven {s : State} (h : Inv s) : Driven s :=
  ⟨h.bus_dir, h.status_window, h.diag_req, h.diag_code, h.diag_range⟩

theorem Inv.framed {s : State} (h : Inv s) : Framed s :=
  ⟨h.buf_wf, h.idx_le, h.startup_idx, h.reading_written, h.reading_open, h.frame_written, h.frame_end,
    h.sync_idx, h.body_idx⟩

theorem inv_of_parts {s : State} (hnow : s.now = []) (hflags : Flagged s) (houts : Driven s) (hframe : Framed s)
    (hheld : s.resetHeld = true → s.state = .startup ∧ s.trace = []) : Inv s where
  no_leftover := hnow
  reset_held := hheld
  buf_wf := hframe.buf_wf
  esc_rx := hflags.esc_rx
  esc_tx := hflags.esc_tx
  esc_tx_byte := hflags.esc_tx_byte
  bus_dir := houts.bus_dir
  status_window := houts.status_window
  diag_req := houts.diag_req
  diag_code := houts.diag_code
  diag_range := houts.diag_range
  idx_le := hframe.idx_le
  startup_idx := hframe.startup_idx
  reading_written := hframe.reading_written
  reading_open := hframe.reading_open
  frame_written := hframe.frame_written
  frame_end := hframe.frame_end
  sync_idx := hframe.sync_idx
  body_idx := hframe.body_idx

/-- The end of a cycle touches none of the three parts, and leaves no event behind. -/
theorem inv_endCycle {u : State} (hflags : Flagged u) (houts : Driven u) (hframe : Framed u) : Inv (endCycle u) :=
  inv_of_parts rfl ⟨hflags.esc_rx, hflags.esc_tx, hflags.esc_tx_byte⟩
    ⟨houts.bus_dir, houts.status_window, houts.diag_req, houts.diag_code, houts.diag_range⟩
    ⟨hframe.buf_wf, hframe.idx_le, hframe.startup_idx, hframe.reading_written, hframe.reading_open,
      hframe.frame_written, hframe.frame_end, hframe.sync_idx, hframe.body_idx⟩
    nofun

/-! ### Flags -/

/-- A state with both flags clear. -/
theorem flagged_of_clear {u : State} (hrx : u.escRxPending = false) (htx : u.escTxPending = false) : Flagged u where
  esc_rx h := absurd (hrx.symm.trans h) Bool.false_ne_true
  esc_tx h := absurd (htx.symm.trans h) Bool.false_ne_true
  esc_tx_byte h := absurd (htx.symm.trans h) Bool.false_ne_true

theorem Inv.escRx_clear {s : State} (h : Inv s) (hst : isReading s.state = false) : s.escRxPending = false :=
  Bool.eq_false_iff.mpr fun hp => absurd (hst.symm.trans (h.esc_rx hp)) Bool.false_ne_true

theorem Inv.escTx_clear {s : State} (h : Inv s) (hst : isSendingBody s.state = false) : s.escTxPending = false :=
  Bool.eq_false_iff.mpr fun hp => absurd (hst.symm.trans (h.esc_tx hp)) Bool.false_ne_true

/-! ### Outputs -/

/-- A step that drives no output and stays in the same windows, with no report before or after it. -/
theorem driven_of_same {s u : State} (h : Driven s) (hdir : u.busDir = s.busDir) (hstatus : u.status = s.status)
    (hreq : u.diagReq = s.diagReq) (hcode : u.diagCode = s.diagCode)
    (hbus : inBusWindow u.state = inBusWindow s.state) (hwin : inStatusWindow u.state = inStatusWindow s.state)
    (hbefore : reportOf s.state = none) (hafter : reportOf u.state = none) : Driven u where
  bus_dir := by rw [hdir, h.bus_dir, hbus]
  status_window := by rw [hstatus, h.status_window, hwin]
  diag_req := by rw [hreq, h.diag_req, hbefore, hafter]
  diag_code d hd := by rw [hafter] at hd; cases hd
  diag_range := by rw [hcode]; exact h.diag_range

theorem diag_code_range (d : Diag) : 1 ≤ d.code.toNat ∧ d.code.toNat ≤ 4 := by cases d <;> decide

@[simp] theorem reportOf_reportingState (d : Diag) : reportOf (reportingState d) = some d := by cases d <;> rfl

@[simp] theorem reportOf_afterReport (d : Diag) : reportOf (afterReport d) = none := by cases d <;> rfl

/-- A step that starts a report, from a state in the same windows (R177). -/
theorem driven_startReport {u : State} (d : Diag) (hdir : u.busDir = inBusWindow (reportingState d))
    (hstatus : u.status = inStatusWindow (reportingState d)) : Driven (startReport d u) where
  bus_dir := hdir
  status_window := hstatus
  diag_req := by simp
  diag_code e he := by
    rw [startReport_state, reportOf_reportingState] at he
    cases he
    rfl
  diag_range := diag_code_range d

/-! ### The frame, by what the state does with it -/

/-- The states at the end of a frame are of no other kind. -/
theorem not_other_kind_of_isAtFrameEnd :
    ∀ st, isAtFrameEnd st = true →
      st ≠ .startup ∧ isReading st = false ∧ isSendingSync st = false ∧ isSendingBody st = false := by
  intro st
  cases st <;> decide

section
variable {s u : State} (hbuf : u.buf = s.buf) (hwf : Memory.wf s.buf = true) (hle : u.idx.toNat ≤ Config.bufCap)
include hbuf hwf hle

/-- Nothing is asked of the frame while the block waits for a sync byte. -/
theorem framed_hunt (ch : Chan) (hst : u.state = huntState ch) : Framed u := by
  refine ⟨hbuf ▸ hwf, hle, ?_, ?_, ?_, ?_, ?_, ?_, ?_⟩ <;> rw [hst] <;> cases ch <;> exact nofun

theorem framed_read (ch : Chan) (hst : u.state = readState ch)
    (hwritten : ∀ a, a < u.idx.toNat → s.written a = true)
    (hopen : u.idx.toNat < 2 ∨ u.idx.toNat < (s.cell 1).toNat + 2) : Framed u := by
  rw [← State.cell_of_buf hbuf] at hopen
  simp only [← State.written_of_buf hbuf] at hwritten
  refine ⟨hbuf ▸ hwf, hle, ?_, fun _ => hwritten, fun _ => hopen, ?_, ?_, ?_, ?_⟩ <;> rw [hst] <;> cases ch <;>
    exact nofun

section
variable (hwritten : ∀ a, a < (s.cell 1).toNat + 2 → s.written a = true)
include hwritten

theorem framed_end (hend : isAtFrameEnd u.state = true) (hidx : u.idx.toNat = (s.cell 1).toNat + 2) :
    Framed u := by
  obtain ⟨hstartup, hread, hsync, hbody⟩ := not_other_kind_of_isAtFrameEnd u.state hend
  rw [← State.cell_of_buf hbuf] at hidx
  simp only [← State.written_of_buf hbuf, ← State.cell_of_buf hbuf] at hwritten
  refine ⟨hbuf ▸ hwf, hle, fun h => absurd h hstartup, ?_, ?_, fun _ => hwritten, fun _ => hidx, ?_, ?_⟩
  · rw [hread]; exact nofun
  · rw [hread]; exact nofun
  · rw [hsync]; exact nofun
  · rw [hbody]; exact nofun

theorem framed_sync (ch : Chan) (hst : u.state = syncState ch) (hidx : u.idx.toNat = 0) : Framed u := by
  simp only [← State.written_of_buf hbuf, ← State.cell_of_buf hbuf] at hwritten
  refine ⟨hbuf ▸ hwf, hle, ?_, ?_, ?_, fun _ => hwritten, ?_, fun _ => hidx, ?_⟩ <;> rw [hst] <;> cases ch <;>
    exact nofun

theorem framed_body (ch : Chan) (hst : u.state = bodyState ch) (hidx : u.idx.toNat < (s.cell 1).toNat + 2) :
    Framed u := by
  rw [← State.cell_of_buf hbuf] at hidx
  simp only [← State.written_of_buf hbuf, ← State.cell_of_buf hbuf] at hwritten
  refine ⟨hbuf ▸ hwf, hle, ?_, ?_, ?_, fun _ => hwritten, ?_, ?_, fun _ => hidx⟩ <;> rw [hst] <;> cases ch <;>
    exact nofun
end
end

/-! ### Each way of firing -/

section
variable {s : State} (h : Inv s)
include h

theorem inv_delivered (d : Diag) (hst : s.state = reportingState d) :
    Inv (endCycle { s with
      diagReq := false, state := afterReport d, idx := if d = .busCsum then 0#9 else s.idx,
      now := s.now ++ [.diag d.code] }) := by
  have hrx := h.escRx_clear (by rw [hst]; cases d <;> rfl)
  have htx := h.escTx_clear (by rw [hst]; cases d <;> rfl)
  have hdir := h.bus_dir
  have hstatus := h.status_window
  rw [hst] at hdir hstatus
  refine inv_endCycle (flagged_of_clear hrx htx) ⟨?_, ?_, ?_, ?_, h.diag_range⟩ ?_
  · cases d <;> exact hdir
  · cases d <;> exact hstatus
  · simp
  · simp
  · cases d with
    | busCsum =>
      exact framed_sync rfl h.buf_wf (Nat.zero_le _) (h.frame_written (by rw [hst]; rfl)) .host rfl rfl
    | startup | hostCsum | resetAbsorbed => exact framed_hunt rfl h.buf_wf h.idx_le .host rfl

theorem inv_found (ch : Chan) (r : Byte) (q : List Byte) (hst : s.state = huntState ch) :
    Inv (endCycle (huntFound ch (takenFrom ch r q s))) := by
  have hrx := h.escRx_clear (by rw [hst]; cases ch <;> rfl)
  have htx := h.escTx_clear (by rw [hst]; cases ch <;> rfl)
  refine inv_endCycle (flagged_of_clear (by simpa using hrx) (by simpa using htx)) ?_ ?_
  · refine driven_of_same h.driven (by simp) (by simp) (by simp) (by simp) ?_ ?_ ?_ ?_ <;>
      simp only [huntFound_state, hst] <;> cases ch <;> rfl
  · exact framed_read (by simp) h.buf_wf (by simp) ch rfl (by simp) (by simp)

theorem inv_skipped (ch : Chan) (r : Byte) (q : List Byte) (hst : s.state = huntState ch) :
    Inv (endCycle (huntSkipped ch (takenFrom ch r q s))) := by
  have hrx := h.escRx_clear (by rw [hst]; cases ch <;> rfl)
  have htx := h.escTx_clear (by rw [hst]; cases ch <;> rfl)
  refine inv_endCycle (flagged_of_clear (by simpa using hrx) (by simpa using htx)) ?_ ?_
  · refine driven_of_same h.driven (by simp) (by simp) (by simp) (by simp) ?_ ?_ ?_ ?_ <;>
      simp only [huntSkipped_state, hst] <;> cases ch <;> rfl
  · exact framed_hunt (by simp) h.buf_wf (by simpa using h.idx_le) ch rfl

theorem inv_marked (ch : Chan) (r : Byte) (q : List Byte) (hst : s.state = readState ch) :
    Inv (endCycle (unescMark (takenFrom ch r q s))) := by
  have htx := h.escTx_clear (by rw [hst]; cases ch <;> rfl)
  have hreading : isReading s.state = true := by rw [hst]; cases ch <;> rfl
  have hopen : s.idx.toNat < 2 ∨ s.idx.toNat < (s.cell 1).toNat + 2 := h.reading_open hreading
  refine inv_endCycle ⟨fun _ => by simpa using hreading, ?_, ?_⟩ ?_ ?_
  · simp [htx]
  · simp [htx]
  · refine driven_of_same h.driven (by simp) (by simp) (by simp) (by simp) ?_ ?_ ?_ ?_ <;>
      simp only [unescMark_state, takenFrom_state, hst] <;> cases ch <;> rfl
  · refine framed_read (by simp) h.buf_wf (by simpa using h.idx_le) ch (by simpa using hst) ?_ ?_
    · simpa using h.reading_written hreading
    · simpa using hopen

/-- The store of a logical byte: the frame goes on, or is complete (R119, R120). -/
theorem inv_stored (ch : Chan) (r v : Byte) (q : List Byte) (hst : s.state = readState ch)
    (hi : s.idx.toNat < 257) : Inv (endCycle (stored ch r v q s)) := by
  have htx := h.escTx_clear (by rw [hst]; cases ch <;> rfl)
  have hreading : isReading s.state = true := by rw [hst]; cases ch <;> rfl
  have hopen : s.idx.toNat < 2 ∨ s.idx.toNat < (s.cell 1).toNat + 2 := h.reading_open hreading
  have hwf : Memory.wf (stored ch r v q s).buf = true := by
    rw [stored_buf]
    exact Memory.wf_write hi v h.buf_wf
  have hnext : (stored ch r v q s).idx.toNat = s.idx.toNat + 1 := by rw [stored_idx, toNat_idx_add_one hi]
  have hle : (stored ch r v q s).idx.toNat ≤ Config.bufCap := hnext.trans_le hi
  have hwritten : ∀ a, a < (stored ch r v q s).idx.toNat → (stored ch r v q s).written a = true := by
    intro a ha
    rw [stored_written, Bool.or_eq_true, decide_eq_true_eq]
    obtain rfl | ha : a = s.idx.toNat ∨ a < s.idx.toNat := by omega
    · exact .inl rfl
    · exact .inr (h.reading_written hreading a ha)
  have hflags : Flagged (stored ch r v q s) := flagged_of_clear (by simp) (by simpa using htx)
  have hdriven : Driven (stored ch r v q s) := by
    have hstate := stored_state ch r v q hi
    refine driven_of_same h.driven (by simp) (by simp) (by simp) (by simp) ?_ ?_ ?_ ?_
    · rw [hstate, hst]; cases ch <;> split <;> rfl
    · rw [hstate, hst]; cases ch <;> split <;> rfl
    · rw [hst]; cases ch <;> rfl
    · rw [hstate, hst]; cases ch <;> split <;> rfl
  refine inv_endCycle hflags hdriven ?_
  have hstate := stored_state ch r v q hi
  split at hstate
  · rename_i hcomplete
    have hend := hnext.trans hcomplete.2
    exact framed_end rfl hwf hle (hend ▸ hwritten) (by rw [hstate]; cases ch <;> rfl) hend
  · rename_i hcomplete
    refine framed_read rfl hwf hle ch (hstate.trans hst) hwritten ?_
    rw [hnext]
    by_cases hk : s.idx.toNat = 1
    · omega
    · have hlen : (stored ch r v q s).cell 1 = s.cell 1 := by rw [stored_cell, if_neg (Ne.symm hk)]
      rw [hlen] at hcomplete ⊢
      omega

theorem inv_startReport (d : Diag) (hst : s.state = .validateHost ∨ s.state = .validateBus)
    (hend' : isAtFrameEnd (reportingState d) = true)
    (hdir : s.busDir = inBusWindow (reportingState d)) (hstatus : s.status = inStatusWindow (reportingState d)) :
    Inv (endCycle (startReport d (checkFrame s))) := by
  have hrx := h.escRx_clear (by obtain hst | hst := hst <;> rw [hst] <;> rfl)
  have htx := h.escTx_clear (by obtain hst | hst := hst <;> rw [hst] <;> rfl)
  have hend : isAtFrameEnd s.state = true := by obtain hst | hst := hst <;> rw [hst] <;> rfl
  have hholds : holdsFrame s.state = true := by simp [holdsFrame, hend]
  have hidx : s.idx.toNat = (s.cell 1).toNat + 2 := h.frame_end hend
  refine inv_endCycle (flagged_of_clear (by simpa using hrx) (by simpa using htx)) ?_ ?_
  · exact driven_startReport d (by simpa using hdir) (by simpa using hstatus)
  · exact framed_end (by simp) h.buf_wf (by simpa using h.idx_le) (h.frame_written hholds) hend'
      (by simpa using hidx)

theorem inv_forwarded (hst : s.state = .validateHost) : Inv (endCycle (forwardHost (checkFrame s))) := by
  have hrx := h.escRx_clear (by rw [hst]; rfl)
  have htx := h.escTx_clear (by rw [hst]; rfl)
  have hreq := h.diag_req
  rw [hst] at hreq
  rw [forwardHost_eq]
  refine inv_endCycle (flagged_of_clear (by simpa using hrx) (by simpa using htx)) ⟨rfl, rfl, ?_, nofun, ?_⟩ ?_
  · exact (checkFrame_diagReq s).trans hreq
  · simpa using h.diag_range
  · exact framed_sync (by simp) h.buf_wf (Nat.zero_le _) (h.frame_written (by rw [hst]; rfl)) .bus rfl rfl

theorem inv_rightReply (hst : s.state = .validateBus) :
    Inv (endCycle { checkFrame s with idx := 0#9, state := .txHostSync }) := by
  have hrx := h.escRx_clear (by rw [hst]; rfl)
  have htx := h.escTx_clear (by rw [hst]; rfl)
  refine inv_endCycle (flagged_of_clear (by simpa using hrx) (by simpa using htx)) ?_ ?_
  · refine driven_of_same h.driven (by simp) (by simp) (by simp) (by simp) ?_ ?_ ?_ ?_ <;> simp only [hst] <;> rfl
  · exact framed_sync (by simp) h.buf_wf (Nat.zero_le _) (h.frame_written (by rw [hst]; rfl)) .host rfl rfl

theorem inv_syncSent (ch : Chan) (es : List Event) (hst : s.state = syncState ch) :
    Inv (endCycle { s with state := bodyState ch, now := es }) := by
  have hrx := h.escRx_clear (by rw [hst]; cases ch <;> rfl)
  have htx := h.escTx_clear (by rw [hst]; cases ch <;> rfl)
  have hidx := h.sync_idx (by rw [hst]; cases ch <;> rfl)
  have hwritten := h.frame_written (by rw [hst]; cases ch <;> rfl)
  refine inv_endCycle (flagged_of_clear hrx htx) ?_ ?_
  · refine driven_of_same h.driven rfl rfl rfl rfl ?_ ?_ ?_ ?_ <;> simp only [hst] <;> cases ch <;> rfl
  · exact framed_body rfl h.buf_wf h.idx_le hwritten ch rfl (by simp [hidx])

theorem inv_markerSent (ch : Chan) (es : List Event) (o : Outputs) (hst : s.state = bodyState ch)
    (hv : isReserved s.current = true) :
    Inv (endCycle { s with now := es, escTxPending := true, out := o }) := by
  have hrx := h.escRx_clear (by rw [hst]; cases ch <;> rfl)
  have hsending : isSendingBody s.state = true := by rw [hst]; cases ch <;> rfl
  have hwritten := h.frame_written (by rw [hst]; cases ch <;> rfl)
  refine inv_endCycle ⟨?_, fun _ => hsending, fun _ => hv⟩ ?_ ?_
  · exact fun hp => absurd (hrx.symm.trans hp) Bool.false_ne_true
  · refine driven_of_same h.driven rfl rfl rfl rfl rfl rfl ?_ ?_ <;> simp only [hst] <;> cases ch <;> rfl
  · exact framed_body rfl h.buf_wf h.idx_le hwritten ch hst (h.body_idx hsending)

/-- A finished byte: the next one follows, or the frame is at its end (R127). -/
theorem inv_byteSent (ch : Chan) (es : List Event) (o : Outputs) (hst : s.state = bodyState ch)
    (hi : s.idx.toNat < 257) :
    Inv (endCycle { s with
      now := es, escTxPending := false, idx := s.idx + 1#9
      state := if s.idx.toNat + 1 = (s.cell 1).toNat + 2 then flushState ch else s.state
      out := o }) := by
  have hrx := h.escRx_clear (by rw [hst]; cases ch <;> rfl)
  have hbody : s.idx.toNat < (s.cell 1).toNat + 2 := h.body_idx (by rw [hst]; cases ch <;> rfl)
  have hwritten := h.frame_written (by rw [hst]; cases ch <;> rfl)
  have hnext : (s.idx + 1#9).toNat = s.idx.toNat + 1 := toNat_idx_add_one hi
  have hle : (s.idx + 1#9).toNat ≤ Config.bufCap := hnext.trans_le hi
  by_cases hlast : s.idx.toNat + 1 = (s.cell 1).toNat + 2
  · rw [if_pos hlast]
    refine inv_endCycle (flagged_of_clear hrx rfl) ?_ ?_
    · refine driven_of_same h.driven rfl rfl rfl rfl ?_ ?_ ?_ ?_ <;> simp only [hst] <;> cases ch <;> rfl
    · exact framed_end rfl h.buf_wf hle hwritten (by cases ch <;> rfl) (hnext.trans hlast)
  · rw [if_neg hlast]
    refine inv_endCycle (flagged_of_clear hrx rfl) ?_ ?_
    · refine driven_of_same h.driven rfl rfl rfl rfl rfl rfl ?_ ?_ <;> simp only [hst] <;> cases ch <;> rfl
    · exact framed_body rfl h.buf_wf hle hwritten ch hst (hnext.trans_lt (Nat.lt_of_le_of_ne hbody hlast))

theorem inv_flushed (ch : Chan) (hst : s.state = flushState ch) : Inv (endCycle (afterFlush ch s)) := by
  have hrx := h.escRx_clear (by rw [hst]; cases ch <;> rfl)
  have htx := h.escTx_clear (by rw [hst]; cases ch <;> rfl)
  have hdir := h.bus_dir
  have hstatus := h.status_window
  have hreq := h.diag_req
  rw [hst] at hdir hstatus hreq
  cases ch with
  | host =>
    exact inv_endCycle (flagged_of_clear hrx htx) ⟨hdir, rfl, hreq, nofun, h.diag_range⟩
      (framed_hunt (s := s) rfl h.buf_wf h.idx_le .host rfl)
  | bus =>
    exact inv_endCycle (flagged_of_clear hrx htx) ⟨rfl, hstatus, hreq, nofun, h.diag_range⟩
      (framed_hunt (s := s) rfl h.buf_wf h.idx_le .bus rfl)
end

/-- The invariant is kept by a cycle that waits. -/
theorem inv_waits {s : State} (h : Inv s) : Inv (endCycle s) := inv_endCycle h.flagged h.driven h.framed

theorem inv_fires {s u : State} (h : Inv s) (hf : Fires s.state s u) : Inv (endCycle u) := by
  cases hf with
  | delivered d hst hd => exact inv_delivered h d hst
  | found ch q hst hv hq => exact inv_found h ch _ q hst
  | skipped ch r q hst hv hq hr => exact inv_skipped h ch r q hst
  | marked ch q hst hv hq hp => exact inv_marked h ch _ q hst
  | stored ch r v q hst hv hq hr hi => exact inv_stored h ch r v q hst hi
  | dropped hst hc =>
    exact inv_startReport h .hostCsum (.inl hst) rfl (h.bus_dir.trans (by rw [hst]; rfl))
      (h.status_window.trans (by rw [hst]; rfl))
  | absorbed hst hc hb =>
    exact inv_startReport h .resetAbsorbed (.inl hst) rfl (h.bus_dir.trans (by rw [hst]; rfl))
      (h.status_window.trans (by rw [hst]; rfl))
  | forwarded hst hc hb => exact inv_forwarded h hst
  | rightReply hst hc => exact inv_rightReply h hst
  | wrongReply hst hc =>
    exact inv_startReport h .busCsum (.inr hst) rfl (h.bus_dir.trans (by rw [hst]; rfl))
      (h.status_window.trans (by rw [hst]; rfl))
  | syncSent ch hst hr => exact inv_syncSent h ch _ hst
  | markerSent ch hst hr hi hp hv => exact inv_markerSent h ch _ _ hst hv
  | byteSent ch hst hr hi hv => exact inv_byteSent h ch _ _ hst hi
  | flushed ch hst hi => exact inv_flushed h ch hst

/-! ### The start of a run -/

/-- A block with the reset values has the invariant, whatever well-formed buffer it starts with (R29, R190). -/
theorem inv_startup {s : State} (hst : s.state = .startup) (hidx : s.idx = 0#9) (hrx : s.escRxPending = false)
    (htx : s.escTxPending = false) (hdir : s.busDir = false) (hstatus : s.status = false)
    (hreq : s.diagReq = true) (hcode : s.diagCode = 1#4) (hnow : s.now = []) (htrace : s.trace = [])
    (hwf : Memory.wf s.buf = true) : Inv s := by
  have hframe : Framed s := by
    refine ⟨hwf, by simp [hidx], fun _ => by simp [hidx], ?_, ?_, ?_, ?_, ?_, ?_⟩ <;> rw [hst] <;> exact nofun
  refine inv_of_parts hnow (flagged_of_clear hrx htx) ⟨?_, ?_, ?_, fun d hd => ?_, ?_⟩ hframe
    fun _ => ⟨hst, htrace⟩
  · rw [hdir, hst]; rfl
  · rw [hstatus, hst]; rfl
  · rw [hreq, hst]; rfl
  · rw [hst] at hd
    cases hd
    exact hcode
  · rw [hcode]; decide

theorem inv_reset {s : State} (h : Inv s) : Inv (endReset (resetBlock s)) := by
  apply inv_startup <;> simp
  exact h.buf_wf

/-- Settles O44: the values after reset, whatever stimulus is placed. -/
theorem invariantAtReset : Obligations.InvariantAtReset :=
  ⟨inv_startup rfl rfl rfl rfl rfl rfl rfl rfl rfl rfl rfl,
    fun _ _ _ => inv_startup rfl rfl rfl rfl rfl rfl rfl rfl rfl rfl rfl⟩

/-- Settles O45: a reset cycle, a cycle that waits, or one that fires. -/
theorem stepKeepsInvariant : Obligations.StepKeepsInvariant := by
  intro s t h hstep
  obtain ⟨_, rfl⟩ | ⟨_, _, rfl⟩ | ⟨_, u, hf, rfl⟩ := step_fires hstep
  · exact inv_reset h
  · exact inv_waits h
  · exact inv_fires h hf

/-! ### Safety -/

/-- Where a step needs the cell at `idx`, the cell exists (R13, R44). -/
theorem Inv.idx_lt {s : State} (h : Inv s) (hst : needsCell s.state = true) : s.idx.toNat < 257 := by
  have hlen := s.length.isLt
  simp only [needsCell, Bool.or_eq_true] at hst
  obtain hread | hbody := hst
  · have := h.reading_open hread
    omega
  · have := h.body_idx hbody
    omega

/-- Settles O46: a step faults only for a cell that does not exist. -/
theorem invariantStatesAreSafe : Obligations.InvariantStatesAreSafe := by
  intro s h
  cases hrst : s.levels.rst with
  | true => exact ⟨_, step_of_rst hrst⟩
  | false =>
    obtain hw | ⟨u, hf⟩ | ⟨hneeds, hout, _⟩ := waits_or_fires_or_faults s.state s
    · exact ⟨_, step_of_waits hrst hw⟩
    · exact ⟨_, step_of_fires hrst hf⟩
    · exact absurd (h.idx_lt hneeds) (Nat.not_lt.mpr hout)

/-- Settles O31: outside the buffer the two kinds of step fault, and no invariant state is there. -/
theorem indexOutsideBufferFaults : Obligations.IndexOutsideBufferFaults := by
  refine ⟨fun ch s hi => ⟨?_, fun r q hv hq hr => ?_⟩, fun s h hst => ?_⟩
  · rw [exec_bodyInstr, sendLogical_of_not_lt hi]
  · obtain ⟨hp, hesc⟩ | ⟨v, hgives⟩ := marker_or_givesLogical s.escRxPending r
    · simp [hp, hesc, Config.esc] at hr
    · rw [exec_readInstr, readStep_logical hv hq hgives, if_neg (Nat.not_lt.mpr hi)]
  · exact h.idx_lt (by simpa [needsCell] using hst)

end Sys2Proof.Machine
end

section
/-! PROOFS. What a firing leaves alone and where it goes: the transitions of 43_frame_relay_fsm.md section 1, the
reports of 60_exceptions.md, and the blocked steps of 70_reset_and_hazards.md section 3. -/

namespace Sys2Proof.Machine

section
variable {st : FsmState} {s u : State} (hf : Fires st s u)
include hf

/-- No firing touches the input levels to come, the cycle count, the earlier trace or the earlier runs (R10). -/
theorem Fires.untouched :
    u.schedule = s.schedule ∧ u.cycle = s.cycle ∧ u.trace = s.trace ∧ u.runs = s.runs ∧
      u.resetHeld = s.resetHeld := by
  cases hf with
  | delivered | found | skipped | marked | stored | dropped | absorbed | rightReply | wrongReply | syncSent
  | markerSent | byteSent | flushed => simp
  | forwarded => simp [forwardHost_eq]

theorem Fires.schedule_eq : u.schedule = s.schedule := by
  obtain ⟨hschedule, _, _, _, _⟩ := hf.untouched
  exact hschedule

theorem Fires.trace_eq : u.trace = s.trace := by
  obtain ⟨_, _, htrace, _, _⟩ := hf.untouched
  exact htrace

theorem Fires.runs_eq : u.runs = s.runs := by
  obtain ⟨_, _, _, hruns, _⟩ := hf.untouched
  exact hruns
end

/-! ### Transitions -/

/-- The transitions of 43_frame_relay_fsm.md section 1, by the kinds of their states. -/
inductive Edge : FsmState → FsmState → Prop where
  | report (d : Diag) : Edge (reportingState d) (afterReport d)
  | hunt (ch : Chan) : Edge (huntState ch) (readState ch)
  | read (ch : Chan) : Edge (readState ch) (validateState ch)
  | dropped : Edge .validateHost .discard
  | absorbed : Edge .validateHost .absorb
  | forwarded : Edge .validateHost .txBusSync
  | rightReply : Edge .validateBus .txHostSync
  | wrongReply : Edge .validateBus .reportBusCsum
  | sync (ch : Chan) : Edge (syncState ch) (bodyState ch)
  | body (ch : Chan) : Edge (bodyState ch) (flushState ch)
  | flush (ch : Chan) : Edge (flushState ch) (huntState ch)

/-- A firing takes an edge or stays. -/
theorem Fires.edge {s u : State} (hf : Fires s.state s u) : u.state = s.state ∨ Edge s.state u.state := by
  cases hf with
  | delivered d hst => rw [hst]; exact .inr (.report d)
  | found ch q hst => rw [hst]; exact .inr (.hunt ch)
  | skipped ch r q hst => rw [hst]; exact .inl rfl
  | marked ch q hst => exact .inl (by simp)
  | stored ch r v q hst hv hq hr hi =>
    rw [stored_state ch r v q hi]
    split
    · rw [hst]; exact .inr (.read ch)
    · exact .inl rfl
  | dropped hst => rw [hst]; exact .inr .dropped
  | absorbed hst => rw [hst]; exact .inr .absorbed
  | forwarded hst => rw [hst]; exact .inr .forwarded
  | rightReply hst => rw [hst]; exact .inr .rightReply
  | wrongReply hst => rw [hst]; exact .inr .wrongReply
  | syncSent ch hst => rw [hst]; exact .inr (.sync ch)
  | markerSent ch hst => exact .inl rfl
  | byteSent ch hst =>
    simp only []
    split
    · rw [hst]; exact .inr (.body ch)
    · exact .inl rfl
  | flushed ch hst => rw [hst, afterFlush_state]; exact .inr (.flush ch)

/-- A step without reset takes an edge or stays. -/
theorem step_edge {s t : State} (hrst : s.levels.rst = false) (h : step s = .next t) :
    t.state = s.state ∨ Edge s.state t.state := by
  obtain ⟨hrst', _⟩ | ⟨_, _, rfl⟩ | ⟨_, u, hf, rfl⟩ := step_fires h
  · exact absurd (hrst.symm.trans hrst') Bool.false_ne_true
  · exact .inl rfl
  · exact hf.edge

/-- Settles O39: the edges are the listed pairs. -/
theorem transitionGraph : Obligations.TransitionGraph := by
  intro s t hrst h
  refine (step_edge hrst h).imp_right fun hedge => ?_
  generalize s.state = a at hedge
  generalize t.state = b at hedge
  cases hedge with
  | report d => cases d <;> decide
  | hunt ch | read ch | sync ch | body ch | flush ch => cases ch <;> decide
  | dropped | absorbed | forwarded | rightReply | wrongReply => decide

/-! ### Reports -/

theorem Edge.ne_startup {a b : FsmState} (h : Edge a b) : b ≠ .startup := by
  cases h with
  | report d => cases d <;> exact nofun
  | hunt ch | read ch | sync ch | body ch | flush ch => cases ch <;> exact nofun
  | dropped | absorbed | forwarded | rightReply | wrongReply => exact nofun

/-- Settles O26: the reporting steps are deliveries, and no edge goes to `STARTUP`. -/
theorem reportingSteps : Obligations.ReportingSteps := by
  refine ⟨fun i code st hrow s => ?_, fun s t h hst => ?_⟩
  · obtain ⟨d, hd⟩ :=
      exists_diag_of_mem (fun d => (stepInstr (reportingState d), d.code, afterReport d)) hrow
    cases hd
    rw [exec_reportingState]
    obtain ⟨hdone, hwait⟩ := deliverReport_spec d s
    exact ⟨fun h => congrArg _ (hdone h), fun h => congrArg _ (hwait h)⟩
  · cases hrst : s.levels.rst with
    | true => exact .inl rfl
    | false =>
      obtain hsame | hedge := step_edge hrst h
      · exact .inr (hsame.symm.trans hst)
      · exact absurd hst hedge.ne_startup

/-- The edges into a reporting state start its report: they come from the two validate states (R177). -/
theorem Edge.report_entry {a b : FsmState} (h : Edge a b) {d : Diag} (hd : reportOf b = some d) :
    a = .validateHost ∨ a = .validateBus := by
  cases h with
  | report e => rw [reportOf_afterReport] at hd; cases hd
  | hunt ch | read ch | sync ch | body ch | flush ch => cases ch <;> cases hd
  | dropped | absorbed | forwarded => exact .inl rfl
  | rightReply | wrongReply => exact .inr rfl

/-- What a firing of `VALIDATE_HOST` leaves (R121). -/
theorem Fires.validateHost {s u : State} (hf : Fires .validateHost s u) :
    u = startReport .hostCsum (checkFrame s) ∨ u = startReport .resetAbsorbed (checkFrame s) ∨
      u = forwardHost (checkFrame s) := by
  have hexec := exec_of_fires hf
  rw [exec_validateHost] at hexec
  have hu := Host.Outcome.next.inj hexec
  split at hu
  · split at hu
    · exact .inr (.inl hu.symm)
    · exact .inr (.inr hu.symm)
  · exact .inl hu.symm

/-- What a firing of `VALIDATE_BUS` leaves (R133). -/
theorem Fires.validateBus {s u : State} (hf : Fires .validateBus s u) :
    u = { checkFrame s with idx := 0#9, state := .txHostSync } ∨ u = startReport .busCsum (checkFrame s) := by
  have hexec := exec_of_fires hf
  rw [exec_validateBus] at hexec
  have hu := Host.Outcome.next.inj hexec
  split at hu
  · exact .inl hu.symm
  · exact .inr hu.symm

/-- A firing that enters a reporting state starts that report on the checked frame (R121, R133, R177). -/
theorem Fires.report_entry {s u : State} (hf : Fires s.state s u) (hbefore : reportOf s.state = none) {d : Diag}
    (hafter : reportOf u.state = some d) :
    u = startReport d (checkFrame s) ∧
      (s.state = .validateHost ∧ d ≠ .busCsum ∨ s.state = .validateBus ∧ d = .busCsum) := by
  obtain hsame | hedge := hf.edge
  · rw [hsame, hbefore] at hafter
    cases hafter
  · obtain hst | hst := hedge.report_entry hafter
    · rw [hst] at hf
      obtain rfl | rfl | rfl := hf.validateHost <;> cases hafter
      · exact ⟨rfl, .inl ⟨hst, nofun⟩⟩
      · exact ⟨rfl, .inl ⟨hst, nofun⟩⟩
    · rw [hst] at hf
      obtain rfl | rfl := hf.validateBus <;> cases hafter
      exact ⟨rfl, .inr ⟨hst, rfl⟩⟩

/-- Settles O27: a report is started on the frame just checked, and touches nothing but its own registers. -/
theorem reportEntryIsPrecise : Obligations.ReportEntryIsPrecise := by
  intro s t h hrst hstep hbefore d hafter
  obtain ⟨hrst', _⟩ | ⟨_, _, rfl⟩ | ⟨_, u, hf, rfl⟩ := step_fires hstep
  · exact absurd (hrst.symm.trans hrst') Bool.false_ne_true
  · exact absurd (hbefore.symm.trans hafter) nofun
  · obtain ⟨rfl, hst⟩ := hf.report_entry hbefore hafter
    have hend : isAtFrameEnd s.state = true := by obtain ⟨hst, _⟩ | ⟨hst, _⟩ := hst <;> rw [hst] <;> rfl
    have hlen : (startReport d (checkFrame s)).length = s.length := State.cell_of_buf (by simp) 1
    have hnow : (startReport d (checkFrame s)).now = [] := by simpa using h.no_leftover
    refine ⟨rfl, rfl, by simp, ?_, ?_, ?_, ?_, ?_⟩
    · exact (congrArg BitVec.toNat (checkFrame_idx s)).trans ((h.frame_end hend).trans (by rw [← hlen]; rfl))
    · have := h.bus_dir
      obtain ⟨hst, _⟩ | ⟨hst, _⟩ := hst <;> rw [hst] at this <;> simpa [inBusWindow] using this
    · have := h.status_window
      obtain ⟨hst, hd⟩ | ⟨hst, hd⟩ := hst <;> rw [hst] at this <;> simp [this, hd, inStatusWindow]
    · simp [checkFrame_eq]
    · simp [joined_of_no_events hnow]

/-! ### Blocked steps -/

theorem reportOf_eq_some {st : FsmState} {d : Diag} (h : reportOf st = some d) : st = reportingState d := by
  cases st <;> cases h <;> rfl

/-- Where the block is ready for a byte (R24). -/
theorem State.rxReady_iff {s : State} {ch : Chan} :
    s.rxReady ch = true ↔ s.levels.rst = false ∧ (s.state = huntState ch ∨ s.state = readState ch) := by
  cases ch <;> simp [State.rxReady, huntState, readState]

/-- Where the block offers a byte (R24). -/
theorem State.txValid_iff {s : State} {ch : Chan} :
    s.txValid ch = true ↔ s.levels.rst = false ∧ (s.state = syncState ch ∨ s.state = bodyState ch) := by
  cases ch <;> simp [State.txValid, syncState, bodyState]

/-- Settles O40: each row of R203's table is a way of waiting. -/
theorem blockedStepChangesNothing : Obligations.BlockedStepChangesNothing := by
  intro s hrst hnow hidx hblocked
  have hwaits : Waits s.state s := by
    obtain ⟨hreport, hd⟩ | ⟨ch, hready, hv⟩ | ⟨ch, hvalid, hr⟩ | ⟨ch, hst, hi⟩ := hblocked
    · obtain ⟨d, hreport⟩ := Option.isSome_iff_exists.mp hreport
      exact .report d (reportOf_eq_some hreport) hd
    · exact .byte ch (State.rxReady_iff.mp hready).2 hv
    · exact .sink ch (State.txValid_iff.mp hvalid).2 hidx hr
    · exact .flush ch hst hi
  rw [step_of_waits hrst hwaits, endCycle, joined_of_no_events hnow, ← hnow]

end Sys2Proof.Machine
end

section
/-! PROOFS. The direction window of 44_rs485_transceiver_arbiter.md section 2, along the trace. -/

namespace Sys2Proof.Machine

/-- A trace is read on from the level its first part ends at. -/
theorem followDir_append (d : Bool) (es fs : List Event) :
    followDir d (es ++ fs) = (followDir d es).bind fun e => followDir e fs := by
  induction es generalizing d with
  | nil => rfl
  | cons e es ih => cases e <;> cases d <;> simp [followDir, ih]

/-- The events of one firing, read from the level of `bus_dir` before it, end at the level after it (R152). -/
def KeepsDirection (s u : State) : Prop := ∃ es, u.now = s.now ++ es ∧ followDir s.busDir es = some u.busDir

section
variable {s : State} (h : Inv s)
include h

theorem followDir_rxEvent {ch : Chan} (r : Byte) (hst : s.state = huntState ch ∨ s.state = readState ch) :
    followDir s.busDir [rxEvent ch r] = some s.busDir := by
  have hdir := h.bus_dir
  obtain hst | hst := hst <;> rw [hst] at hdir <;> cases ch <;> rw [hdir] <;> rfl

theorem followDir_txEvent {ch : Chan} (b : Byte) (hst : s.state = syncState ch ∨ s.state = bodyState ch) :
    followDir s.busDir [txEvent ch b] = some s.busDir := by
  have hdir := h.bus_dir
  obtain hst | hst := hst <;> rw [hst] at hdir <;> cases ch <;> rw [hdir] <;> rfl

/-- Every bus byte of a firing is on the right side of the direction window (R152). -/
theorem Fires.keepsDirection {u : State} (hf : Fires s.state s u) : KeepsDirection s u := by
  cases hf with
  | delivered d => exact ⟨_, rfl, rfl⟩
  | found ch q hst => exact ⟨_, takenFrom_now .., by simpa using followDir_rxEvent h _ (.inl hst)⟩
  | skipped ch r q hst => exact ⟨_, takenFrom_now .., by simpa using followDir_rxEvent h _ (.inl hst)⟩
  | marked ch q hst => exact ⟨_, takenFrom_now .., by simpa using followDir_rxEvent h _ (.inr hst)⟩
  | stored ch r v q hst => exact ⟨_, stored_now .., by simpa using followDir_rxEvent h _ (.inr hst)⟩
  | dropped | absorbed | rightReply | wrongReply => exact ⟨[], by simp, by simp [followDir]⟩
  | forwarded hst =>
    have hdir := h.bus_dir
    have hstatus := h.status_window
    rw [hst] at hdir hstatus
    exact ⟨[.dir true, .status true], by simp [forwardHost_eq, hdir, hstatus, inBusWindow, inStatusWindow],
      by simp [forwardHost_eq, followDir]⟩
  | syncSent ch hst => exact ⟨_, rfl, followDir_txEvent h _ (.inl hst)⟩
  | markerSent ch hst => exact ⟨_, rfl, followDir_txEvent h _ (.inr hst)⟩
  | byteSent ch hst => exact ⟨_, rfl, followDir_txEvent h _ (.inr hst)⟩
  | flushed ch hst =>
    have hdir := h.bus_dir
    have hstatus := h.status_window
    rw [hst] at hdir hstatus
    cases ch with
    | host => exact ⟨[.hflush, .status false], by simp [afterFlush, hstatus, flushState, inStatusWindow], rfl⟩
    | bus =>
      exact ⟨[.bflush, .dir false], by simp [afterFlush, hdir, flushState, inBusWindow],
        by simp [hdir, flushState, inBusWindow, followDir, afterFlush]⟩
end

/-- The events a reset implies bring the direction down (R192). -/
theorem followDir_resetBlock (s : State) (hnow : s.now = []) :
    followDir s.busDir (resetBlock s).now = some false := by
  cases hdir : s.busDir <;> cases hstatus : s.status <;> simp [hnow, hdir, hstatus, followDir]

/-- Settles O47: the events of the cycle are read on from the trace before it, in this run or at the end of one. -/
theorem stepKeepsDirectionDiscipline : Obligations.StepKeepsDirectionDiscipline := by
  intro s t h htrace hstep
  obtain ⟨_, rfl⟩ | ⟨_, _, rfl⟩ | ⟨_, u, hf, rfl⟩ := step_fires hstep
  · have hended : followDir false (resetBlock s).joined.flatten = some false := by
      rw [joined_flatten, resetBlock_trace, followDir_append, htrace]
      exact followDir_resetBlock s h.no_leftover
    refine ⟨by simp [followDir], fun hruns r hr => ?_⟩
    rw [endReset_runs, resetBlock_runs] at hr
    split at hr
    · exact hruns r hr
    · obtain hr | hr := List.mem_append.mp hr
      · exact hruns r hr
      · rw [List.mem_singleton.mp hr, hended]
  · refine ⟨?_, fun hruns => hruns⟩
    rw [endCycle_trace, joined_of_no_events h.no_leftover, htrace]
    rfl
  · obtain ⟨es, hnow, hdir⟩ := hf.keepsDirection h
    refine ⟨?_, fun hruns => ?_⟩
    · rw [endCycle_trace, joined_flatten, hf.trace_eq, hnow, h.no_leftover, List.nil_append, followDir_append,
        htrace]
      exact hdir
    · rw [endCycle_runs, hf.runs_eq]
      exact hruns

/-! ### Every reachable state -/

theorem run_succ {n : Nat} {s t : State} (h : step s = .next t) :
    Sys2Proof.core.run (n + 1) s = Sys2Proof.core.run n t := by
  have hstep : Sys2Proof.core.step s = .next t := h
  simp only [Host.Core.run, hstep]

/-- A run of one step more is the step and the run after it. -/
theorem run_succ_next {n : Nat} {s u : State} (h : Sys2Proof.core.run (n + 1) s = .next u) :
    ∃ t, step s = .next t ∧ Sys2Proof.core.run n t = .next u := by
  cases hstep : step s with
  | next t => exact ⟨t, rfl, run_succ hstep ▸ h⟩
  | fault r =>
    have hfault : Sys2Proof.core.step s = .fault r := hstep
    simp only [Host.Core.run, hfault] at h
    cases h
  | refused r =>
    have hrefused : Sys2Proof.core.step s = .refused r := hstep
    simp only [Host.Core.run, hrefused] at h
    cases h

/-- The induction over a run, packaged once: what every step keeps holds at its end. -/
theorem run_induction {P : State → Prop} (hstep : ∀ s t, P s → step s = .next t → P t) :
    ∀ (n : Nat) (s t : State), P s → Sys2Proof.core.run n s = .next t → P t
  | 0, _, _, hs, h => Host.Outcome.next.inj h ▸ hs
  | n + 1, s, _, hs, h => by
    obtain ⟨u, hsu, hut⟩ := run_succ_next h
    exact run_induction hstep n u _ (hstep s u hs hsu) hut

/-- The trace part of the direction window (R152). -/
structure Disciplined (s : State) : Prop where
  inv : Inv s
  present : followDir false s.trace.flatten = some s.busDir
  ended : ∀ r ∈ s.runs, followDir false r.flatten = some false

theorem Disciplined.step {s t : State} (h : Disciplined s) (hstep : step s = .next t) : Disciplined t := by
  obtain ⟨hpresent, hended⟩ := stepKeepsDirectionDiscipline s t h.inv h.present hstep
  exact ⟨stepKeepsInvariant s t h.inv hstep, hpresent, hended h.ended⟩

theorem Reachable.disciplined {s : State} (h : Reachable s) : Disciplined s := by
  obtain ⟨host, bus, levels, n, hrun⟩ := h
  have hstart : Disciplined (stimulated host bus levels) :=
    ⟨invariantAtReset.2 host bus levels, rfl, List.forall_mem_nil _⟩
  exact run_induction (fun _ _ hs hstep => hs.step hstep) n _ s hstart hrun

theorem Reachable.inv {s : State} (h : Reachable s) : Inv s := h.disciplined.inv

/-- Settles O49: the window from the invariant, the traces from the discipline every step keeps. -/
theorem directionWindow : Obligations.DirectionWindow := by
  intro s h
  refine ⟨?_, h.disciplined.present, h.disciplined.ended⟩
  rw [h.inv.bus_dir]
  cases s.state <;> decide

/-- Settles O48: the window from the invariant, read off for each state. -/
theorem statusWindow : Obligations.StatusWindow := by
  intro s h
  rw [h.inv.bus_dir, h.inv.status_window]
  cases s.state <;> decide

/-! ### The registers of every reachable state -/

/-- A firing that changes the state leaves both flags clear: it finishes the pair it is in (R30). -/
theorem Fires.flags_clear {s u : State} (h : Inv s) (hf : Fires s.state s u) (hne : u.state ≠ s.state) :
    u.escRxPending = false ∧ u.escTxPending = false := by
  have clear (hread : isReading s.state = false) (hsend : isSendingBody s.state = false) :
      s.escRxPending = false ∧ s.escTxPending = false := ⟨h.escRx_clear hread, h.escTx_clear hsend⟩
  cases hf with
  | delivered d hst => exact clear (by rw [hst]; cases d <;> rfl) (by rw [hst]; cases d <;> rfl)
  | found ch q hst => simpa using clear (by rw [hst]; cases ch <;> rfl) (by rw [hst]; cases ch <;> rfl)
  | skipped ch r q hst => exact absurd hst.symm hne
  | marked => exact absurd (by simp) hne
  | stored ch r v q hst => simpa using h.escTx_clear (by rw [hst]; cases ch <;> rfl)
  | dropped hst | absorbed hst | rightReply hst | wrongReply hst =>
    simpa using clear (by rw [hst]; rfl) (by rw [hst]; rfl)
  | forwarded hst => simpa [forwardHost_eq] using clear (by rw [hst]; rfl) (by rw [hst]; rfl)
  | syncSent ch hst => exact clear (by rw [hst]; cases ch <;> rfl) (by rw [hst]; cases ch <;> rfl)
  | markerSent => exact absurd rfl hne
  | byteSent ch hst => exact ⟨h.escRx_clear (by rw [hst]; cases ch <;> rfl), rfl⟩
  | flushed ch hst =>
    have := clear (by rw [hst]; cases ch <;> rfl) (by rw [hst]; cases ch <;> rfl)
    cases ch <;> exact this

theorem step_flags_clear {s t : State} (h : Inv s) (hstep : step s = .next t) (hne : t.state ≠ s.state) :
    t.escRxPending = false ∧ t.escTxPending = false := by
  obtain ⟨_, rfl⟩ | ⟨_, _, rfl⟩ | ⟨_, u, hf, rfl⟩ := step_fires hstep
  · simp
  · exact absurd rfl hne
  · exact Fires.flags_clear (u := u) h hf hne

theorem isReading_iff {st : FsmState} : isReading st = true ↔ st = .readHost ∨ st = .readBus := by
  cases st <;> decide

theorem isSendingBody_iff {st : FsmState} : isSendingBody st = true ↔ st = .txBusBody ∨ st = .txHostBody := by
  cases st <;> decide

/-- The codes that are driven are the four of R166. -/
theorem code_mem_of_range {c : Nibble} (h : 1 ≤ c.toNat ∧ c.toNat ≤ 4) : c ∈ [1#4, 2#4, 3#4, 4#4] := by
  revert c
  decide

/-- Settles O50: each clause is read off the invariant. -/
theorem reachableRegisters : Obligations.ReachableRegisters := by
  intro s hs
  have h := hs.inv
  refine ⟨fun hp => isReading_iff.mp (h.esc_rx hp), fun hp => isSendingBody_iff.mp (h.esc_tx hp),
    fun t hstep hne => step_flags_clear h hstep hne, ?_, code_mem_of_range h.diag_range, ?_, h.idx_le, ?_, ?_,
    invariantStatesAreSafe s h⟩
  · rw [h.diag_req]
    cases s.state <;> decide
  · intro p hp hst
    simp only [List.mem_cons, List.not_mem_nil, or_false] at hp
    obtain rfl | rfl | rfl | rfl := hp
    · exact h.diag_code .startup (by rw [hst]; rfl)
    · exact h.diag_code .hostCsum (by rw [hst]; rfl)
    · exact h.diag_code .resetAbsorbed (by rw [hst]; rfl)
    · exact h.diag_code .busCsum (by rw [hst]; rfl)
  · intro hst a ha
    have hholds : holdsFrame s.state = true := by
      revert hst
      cases s.state <;> decide
    exact h.frame_written hholds a (Nat.lt_succ_of_le ha)
  · intro hst
    have hbody := isSendingBody_iff.mpr hst
    have hholds : holdsFrame s.state = true := by simp [holdsFrame, hbody]
    have hlt := h.body_idx hbody
    exact ⟨Nat.le_of_lt_succ hlt, h.frame_written hholds _ hlt⟩

end Sys2Proof.Machine
end

section
/-! PROOFS. Reset and fetch (70_reset_and_hazards.md section 1, 10_state.md sections 3 and 10). -/

namespace Sys2Proof.Machine

/-- Settles O9: the reset values; the block is in `STARTUP`, which neither takes nor offers a byte. -/
theorem resetValues : Obligations.ResetValues := by
  refine ⟨rfl, rfl, rfl, rfl, rfl, rfl, rfl, rfl, rfl, fun _ => rfl, fun ch => ⟨?_, ?_⟩⟩ <;>
    rw [Bool.eq_false_iff]
  · intro h
    obtain hst | hst := (State.rxReady_iff.mp h).2 <;> cases ch <;> cases hst
  · intro h
    obtain hst | hst := (State.txValid_iff.mp h).2 <;> cases ch <;> cases hst

/-- A state with every register at its reset value, at the start of a run (R190, R192). -/
def withResetValues (s : State) : State :=
  { s with
    state := .startup, idx := 0#9, csum := 0#8, escRxPending := false, escTxPending := false,
    busDir := false, status := false, diagReq := true, diagCode := 1#4, now := [], trace := [],
    resetHeld := true }

/-- The trace of a run that a reset ends: the run so far, and the events the forced outputs imply (R192). -/
def endedTrace (s : State) : List (List Event) :=
  if s.now = [] ∧ s.busDir = false ∧ s.status = false then s.trace
  else s.trace ++ [s.now ++ (if s.busDir then [.dir false] else []) ++
    (if s.status then [.status false] else [])]

theorem resetBlock_joined (s : State) : (resetBlock s).joined = endedTrace s := by
  unfold State.joined endedTrace
  rw [resetBlock_now, resetBlock_trace]
  cases s.busDir <;> cases s.status <;> simp

/-- The end of a reset cycle, as one update. -/
theorem endReset_resetBlock (s : State) :
    endReset (resetBlock s) = withResetValues
      { s with
        schedule := s.schedule.tail, cycle := s.cycle + 1,
        runs := if s.resetHeld = true ∧ endedTrace s = [] then s.runs else s.runs ++ [endedTrace s] } := by
  rw [← resetBlock_joined]
  simp [endReset, withResetValues, resetBlock, setStatus_eq, setBusDir_eq, startReport, reportingState, Diag.code]

/-- Settles O10: reset wins over the operation of the state. -/
theorem resetCycle : Obligations.ResetCycle := by
  intro s
  refine ⟨fun hrst => ⟨fun ch => ⟨?_, ?_⟩, ?_⟩, step_of_not_rst⟩
  · exact Bool.eq_false_iff.mpr fun h => absurd ((State.rxReady_iff.mp h).1.symm.trans hrst) Bool.false_ne_true
  · exact Bool.eq_false_iff.mpr fun h => absurd ((State.txValid_iff.mp h).1.symm.trans hrst) Bool.false_ne_true
  · rw [step_of_rst hrst, endReset_resetBlock]
    rfl

/-- A further cycle of a held reset only counts (log entry 7). -/
theorem step_withResetValues {s : State} (hrst : s.levels.rst = true) :
    step (withResetValues s) = .next (withResetValues { s with schedule := s.schedule.tail, cycle := s.cycle + 1 }) := by
  have hlevels : (withResetValues s).levels.rst = true := hrst
  rw [step_of_rst hlevels, endReset_resetBlock]
  rfl

theorem levels_of_cons {s : State} {l : Levels} {later : List Levels} (h : s.schedule = l :: later) :
    s.levels = l := by
  simp [State.levels, h]

/-- A held reset keeps the reset values for as long as it is held. -/
theorem run_withResetValues (n : Nat) (s : State) (hlen : n ≤ s.schedule.length)
    (hrst : ∀ l ∈ s.schedule.take n, l.rst = true) :
    Sys2Proof.core.run n (withResetValues s) =
      .next (withResetValues { s with schedule := s.schedule.drop n, cycle := s.cycle + n }) := by
  induction n generalizing s with
  | zero => rfl
  | succ n ih =>
    cases hs : s.schedule with
    | nil => simp [hs] at hlen
    | cons l later =>
      simp only [hs, List.take_succ_cons, List.mem_cons, forall_eq_or_imp] at hrst
      have hl : s.levels.rst = true := by rw [levels_of_cons hs]; exact hrst.1
      rw [run_succ (step_withResetValues hl), ih _ (by simpa [hs] using hlen) (by simpa [hs] using hrst.2)]
      simp [hs, withResetValues, Nat.add_comm, Nat.add_left_comm]

/-- Under the invariant the events a reset implies are those of the status window (R152, R155). -/
theorem endedTrace_of_inv {s : State} (h : Inv s) :
    endedTrace s = s.trace ++
      if s.status then [(if s.busDir then [.dir false] else []) ++ [.status false]] else [] := by
  have hdir : s.busDir = true → s.status = true := by
    rw [h.bus_dir, h.status_window]
    cases s.state <;> decide
  unfold endedTrace
  cases hb : s.busDir <;> cases hs : s.status <;> simp_all [h.no_leftover]

/-- Settles O11: the first cycle ends the run, and the others only count. -/
theorem heldResetEndsOneRun : Obligations.HeldResetEndsOneRun := by
  intro s n h hheld hlen hrst
  cases hs : s.schedule with
  | nil => simp [hs] at hlen
  | cons l later =>
    simp only [hs, List.take_succ_cons, List.mem_cons, forall_eq_or_imp] at hrst
    have hl : s.levels.rst = true := by rw [levels_of_cons hs]; exact hrst.1
    rw [run_succ (step_of_rst hl), endReset_resetBlock,
      run_withResetValues _ _ (by simpa [hs] using hlen) (by simpa [hs] using hrst.2)]
    simp [hs, hheld, withResetValues, endedTrace_of_inv h, h.no_leftover, Nat.add_comm, Nat.add_left_comm]

/-! ### Fetch -/

/-- The word in the state register decodes to the step of the state (R72). -/
theorem decode_fetchWord (s : State) : decode .fsm (fetchWord s) = .ok (stepInstr s.state) [] := by
  unfold fetchWord
  cases s.state <;> rfl

/-- Settles O12: the register's word decodes to the step that `step` runs. -/
theorem stepRunsDecodedOperation : Obligations.StepRunsDecodedOperation := by
  refine ⟨fun s i rest hrst hdecode => ?_, fun s => ⟨_, decode_fetchWord s⟩⟩
  rw [decode_fetchWord] at hdecode
  cases hdecode
  refine ⟨rfl, by cases s.state <;> rfl, ?_⟩
  rw [step_of_not_rst hrst]
  cases exec (stepInstr s.state) s <;> rfl

end Sys2Proof.Machine
end

section
/-! PROOFS. The stream handshake of 10_state.md section 8: what a firing takes and what it sends. -/

namespace Sys2Proof.Machine

theorem bytesTaken_append (ch : Chan) (es fs : List Event) :
    bytesTaken ch (es ++ fs) = bytesTaken ch es ++ bytesTaken ch fs := List.filterMap_append

theorem bytesSent_append (ch : Chan) (es fs : List Event) :
    bytesSent ch (es ++ fs) = bytesSent ch es ++ bytesSent ch fs := List.filterMap_append

@[simp] theorem bytesTaken_rxEvent (ch c : Chan) (r : Byte) :
    bytesTaken ch [rxEvent c r] = if ch = c then [r] else [] := by
  cases ch <;> cases c <;> rfl

@[simp] theorem bytesSent_rxEvent (ch c : Chan) (r : Byte) : bytesSent ch [rxEvent c r] = [] := by
  cases ch <;> cases c <;> rfl

@[simp] theorem bytesTaken_txEvent (ch c : Chan) (b : Byte) : bytesTaken ch [txEvent c b] = [] := by
  cases ch <;> cases c <;> rfl

@[simp] theorem bytesSent_txEvent (ch c : Chan) (b : Byte) :
    bytesSent ch [txEvent c b] = if ch = c then [b] else [] := by
  cases ch <;> cases c <;> rfl

/-- Events that no byte is part of. -/
def Silent (es : List Event) : Prop := ∀ ch, bytesTaken ch es = [] ∧ bytesSent ch es = []

/-- The channel a state takes a byte from, if any (R24). -/
def rxChan : FsmState → Option Chan
  | .awaitHostSync | .readHost => some .host
  | .awaitBusSync | .readBus => some .bus
  | _ => none

/-- The channel a state offers a byte to, if any (R24). -/
def txChan : FsmState → Option Chan
  | .txHostSync | .txHostBody => some .host
  | .txBusSync | .txBusBody => some .bus
  | _ => none

theorem rxChan_iff {ch : Chan} {st : FsmState} : rxChan st = some ch ↔ st = huntState ch ∨ st = readState ch := by
  revert ch st
  rintro (_ | _) st <;> cases st <;> decide

theorem txChan_iff {ch : Chan} {st : FsmState} : txChan st = some ch ↔ st = syncState ch ∨ st = bodyState ch := by
  revert ch st
  rintro (_ | _) st <;> cases st <;> decide

/-- No state does both. -/
theorem rxChan_none_or_txChan_none (st : FsmState) : rxChan st = none ∨ txChan st = none := by
  cases st <;> decide

/-- What a firing does with the streams: it takes one byte, sends one byte, or leaves them alone. -/
inductive Moves (s u : State) : Prop where
  | takes (c : Chan) (r : Byte) (q : List Byte) (hst : rxChan s.state = some c) (hv : s.rxValid c = true)
      (hq : s.rxQueue c = r :: q) (hrest : ∀ ch, u.rxQueue ch = if ch = c then q else s.rxQueue ch)
      (hnow : u.now = s.now ++ [rxEvent c r])
  | sends (c : Chan) (b : Byte) (hst : txChan s.state = some c) (hr : s.txReady c = true)
      (hb : s.levels.rst = false → s.txData c = some b) (hrest : ∀ ch, u.rxQueue ch = s.rxQueue ch)
      (hnow : u.now = s.now ++ [txEvent c b])
  | neither (es : List Event) (hrx : rxChan s.state = none) (htx : txChan s.state = none) (hes : Silent es)
      (hrest : ∀ ch, u.rxQueue ch = s.rxQueue ch) (hnow : u.now = s.now ++ es)

theorem txData_sync {s : State} {ch : Chan} (hrst : s.levels.rst = false) (hst : s.state = syncState ch) :
    s.txData ch = some Config.sync := by
  have hvalid : s.txValid ch = true := State.txValid_iff.mpr ⟨hrst, .inl hst⟩
  rw [State.txData, if_pos hvalid, if_pos]
  rw [hst]
  cases ch
  · exact .inr rfl
  · exact .inl rfl

theorem txData_body {s : State} {ch : Chan} (hrst : s.levels.rst = false) (hst : s.state = bodyState ch) :
    s.txData ch = some (escaperByte s.escTxPending s.current) := by
  have hvalid : s.txValid ch = true := State.txValid_iff.mpr ⟨hrst, .inr hst⟩
  rw [State.txData, if_pos hvalid, if_neg]
  rw [hst]
  cases ch <;> decide

theorem escaperByte_last {pending : Bool} {v : Byte} (h : pending = true ∨ isReserved v = false) :
    escaperByte pending v = if pending then v - 1#8 else v := by
  unfold escaperByte
  obtain rfl | hv := h
  · rfl
  · rw [hv]
    rfl

theorem silent_nil : Silent [] := fun _ => ⟨rfl, rfl⟩

theorem silent_forward (dir status : Bool) :
    Silent ((if dir then [] else [.dir true]) ++ if status then [] else [.status true]) := by
  intro ch
  cases ch <;> cases dir <;> cases status <;> exact ⟨rfl, rfl⟩

theorem silent_fall (dir status : Bool) :
    Silent ((if dir = false then [] else [.dir false]) ++ if status = false then [] else [.status false]) := by
  intro ch
  cases ch <;> cases dir <;> cases status <;> exact ⟨rfl, rfl⟩

theorem silent_flush (c : Chan) (level : Bool) (e : Event) (he : e = .dir false ∨ e = .status false) :
    Silent (flushEvent c :: if level then [e] else []) := by
  intro ch
  obtain rfl | rfl := he <;> cases ch <;> cases c <;> cases level <;> exact ⟨rfl, rfl⟩

theorem Fires.moves {s u : State} (hf : Fires s.state s u) : Moves s u := by
  cases hf with
  | delivered d hst =>
    have hkind : rxChan s.state = none ∧ txChan s.state = none := by rw [hst]; cases d <;> exact ⟨rfl, rfl⟩
    exact .neither [.diag d.code] hkind.1 hkind.2 (fun ch => by cases ch <;> exact ⟨rfl, rfl⟩)
      (fun ch => by cases ch <;> rfl) rfl
  | found ch q hst hv hq =>
    exact .takes ch _ q (rxChan_iff.mpr (.inl hst)) hv hq (takenFrom_rxQueue ch _ q s) (takenFrom_now ..)
  | skipped ch r q hst hv hq =>
    exact .takes ch r q (rxChan_iff.mpr (.inl hst)) hv hq (takenFrom_rxQueue ch r q s) (takenFrom_now ..)
  | marked ch q hst hv hq =>
    exact .takes ch _ q (rxChan_iff.mpr (.inr hst)) hv hq (takenFrom_rxQueue ch _ q s) (takenFrom_now ..)
  | stored ch r v q hst hv hq =>
    exact .takes ch r q (rxChan_iff.mpr (.inr hst)) hv hq (stored_rxQueue ch r v q s) (stored_now ..)
  | dropped hst | absorbed hst | rightReply hst | wrongReply hst =>
    exact .neither [] (by rw [hst]; rfl) (by rw [hst]; rfl) silent_nil
      (fun ch => by cases ch <;> simp [State.rxQueue]) (by simp)
  | forwarded hst =>
    exact .neither _ (by rw [hst]; rfl) (by rw [hst]; rfl) (silent_forward s.busDir s.status)
      (fun ch => by cases ch <;> simp [State.rxQueue, forwardHost_eq]) (by simp [forwardHost_eq])
  | syncSent ch hst hr =>
    exact .sends ch _ (txChan_iff.mpr (.inl hst)) hr (fun hrst => txData_sync hrst hst)
      (fun c => by cases c <;> rfl) rfl
  | markerSent ch hst hr hi hp hv =>
    refine .sends ch _ (txChan_iff.mpr (.inr hst)) hr (fun hrst => ?_) (fun c => by cases c <;> rfl) rfl
    rw [txData_body hrst hst, escaperByte, hp, hv]
    rfl
  | byteSent ch hst hr hi hv =>
    refine .sends ch _ (txChan_iff.mpr (.inr hst)) hr (fun hrst => ?_) (fun c => by cases c <;> rfl) rfl
    rw [txData_body hrst hst, escaperByte_last hv]
  | flushed ch hst =>
    cases ch with
    | host =>
      exact .neither _ (by rw [hst]; rfl) (by rw [hst]; rfl) (silent_flush .host s.status _ (.inr rfl))
        (afterFlush_rxQueue .host s) rfl
    | bus =>
      exact .neither _ (by rw [hst]; rfl) (by rw [hst]; rfl) (silent_flush .bus s.busDir _ (.inl rfl))
        (afterFlush_rxQueue .bus s) rfl

theorem Fires.history_eq {st : FsmState} {s u : State} (hf : Fires st s u) : u.history = s.history := by
  rw [State.history, hf.trace_eq, hf.runs_eq]
  rfl

theorem State.rxReady_iff_rxChan {s : State} {ch : Chan} :
    s.rxReady ch = true ↔ s.levels.rst = false ∧ rxChan s.state = some ch := by
  rw [State.rxReady_iff, rxChan_iff]

theorem State.txValid_iff_txChan {s : State} {ch : Chan} :
    s.txValid ch = true ↔ s.levels.rst = false ∧ txChan s.state = some ch := by
  rw [State.txValid_iff, txChan_iff]

/-- A waiting step completes no handshake. -/
theorem Waits.no_handshake {s : State} (hw : Waits s.state s) (ch : Chan) :
    ¬ (s.rxValid ch = true ∧ s.rxReady ch = true) ∧ ¬ (s.txValid ch = true ∧ s.txReady ch = true) := by
  rw [State.rxReady_iff_rxChan, State.txValid_iff_txChan]
  cases hw with
  | report d hst =>
    have hkind : rxChan s.state = none ∧ txChan s.state = none := by rw [hst]; cases d <;> exact ⟨rfl, rfl⟩
    simp [hkind]
  | byte c hst hv =>
    have hrx := rxChan_iff.mpr hst
    have htx : txChan s.state = none := (rxChan_none_or_txChan_none s.state).resolve_left (by simp [hrx])
    refine ⟨fun ⟨hv', _, hch⟩ => ?_, by simp [htx]⟩
    rw [hrx] at hch
    cases hch
    exact absurd (hv.symm.trans hv') Bool.false_ne_true
  | sink c hst hi hr =>
    have htx := txChan_iff.mpr hst
    have hrx : rxChan s.state = none := (rxChan_none_or_txChan_none s.state).resolve_right (by simp [htx])
    refine ⟨by simp [hrx], fun ⟨⟨_, hch⟩, hr'⟩ => ?_⟩
    rw [htx] at hch
    cases hch
    exact absurd (hr.symm.trans hr') Bool.false_ne_true
  | flush c hst =>
    have hkind : rxChan s.state = none ∧ txChan s.state = none := by rw [hst]; cases c <;> exact ⟨rfl, rfl⟩
    simp [hkind]

/-- Settles O41: a reset cycle and a waiting step move no byte; a firing moves the byte that `Moves` says. -/
theorem streamHandshake : Obligations.StreamHandshake := by
  intro s t hnow hstep ch
  obtain ⟨hrst, rfl⟩ | ⟨_, hw, rfl⟩ | ⟨hrst, u, hf, rfl⟩ := step_fires hstep
  · have hrx : s.rxReady ch ≠ true := fun h => by simp [(State.rxReady_iff.mp h).1] at hrst
    have htx : s.txValid ch ≠ true := fun h => by simp [(State.txValid_iff.mp h).1] at hrst
    have hhistory : (resetBlock s).history = s.history := by simp [State.history]
    obtain ⟨htaken, hsent⟩ := silent_fall s.busDir s.status ch
    rw [history_endReset, hhistory, resetBlock_now, hnow, List.nil_append, bytesTaken_append, bytesSent_append,
      htaken, hsent, List.append_nil, List.append_nil]
    refine ⟨fun h => absurd h.2 hrx, fun _ => ⟨?_, rfl⟩, fun h => absurd h.1 htx, fun _ => rfl⟩
    cases ch <;> simp [State.rxQueue]
  · obtain ⟨hrx, htx⟩ := hw.no_handshake ch
    rw [history_endCycle, hnow, List.append_nil]
    exact ⟨fun h => absurd h hrx, fun _ => ⟨endCycle_rxQueue s ch, rfl⟩, fun h => absurd h htx, fun _ => rfl⟩
  · rw [history_endCycle, hf.history_eq, endCycle_rxQueue, State.rxReady_iff_rxChan, State.txValid_iff_txChan,
      bytesTaken_append, bytesSent_append]
    cases hf.moves with
    | takes c r q hst hv hq hrest hnow' =>
      have htx : txChan s.state = none := (rxChan_none_or_txChan_none s.state).resolve_left (by simp [hst])
      rw [hnow', hnow, List.nil_append, bytesTaken_rxEvent, bytesSent_rxEvent, hrest, hst, htx]
      by_cases hch : ch = c
      · subst hch
        simp [hv, hq, hrst]
      · simp [hch, Ne.symm hch]
    | sends c b hst hr hb hrest hnow' =>
      have hrx : rxChan s.state = none := (rxChan_none_or_txChan_none s.state).resolve_right (by simp [hst])
      rw [hnow', hnow, List.nil_append, bytesTaken_txEvent, bytesSent_txEvent, hrest, hst, hrx]
      by_cases hch : ch = c
      · subst hch
        simp [hr, hrst, hb hrst]
      · simp [hch, Ne.symm hch]
    | neither es hrx htx hes hrest hnow' =>
      obtain ⟨htaken, hsent⟩ := hes ch
      rw [hnow', hnow, List.nil_append, htaken, hsent, hrest, hrx, htx]
      simp

end Sys2Proof.Machine
end

section
/-! PROOFS. What a step does not look at: the inputs its state does not wait for (60_exceptions.md sections 3 and 4), the
level `bus_sense` (10_state.md section 8), and the combinational outputs of earlier operations (log entry 5). -/

namespace Sys2Proof.Machine

/-- The state with other input levels to come, and other combinational outputs left in it. -/
def State.reinput (s : State) (levels : List Levels) (o : Outputs) : State := { s with schedule := levels, out := o }

/-- Two samples of the input levels that differ only in what the state `st` does not wait for. -/
structure SameInputs (st : FsmState) (l m : Levels) : Prop where
  diagDone : (reportOf st).isSome = true → l.diagDone = m.diagDone
  hostRxValid : st = .awaitHostSync ∨ st = .readHost → l.hostRxValid = m.hostRxValid
  busRxValid : st = .awaitBusSync ∨ st = .readBus → l.busRxValid = m.busRxValid
  hostTxReady : st = .txHostSync ∨ st = .txHostBody → l.hostTxReady = m.hostTxReady
  busTxReady : st = .txBusSync ∨ st = .txBusBody → l.busTxReady = m.busTxReady
  hostTxIdle : st = .txHostFlush → l.hostTxIdle = m.hostTxIdle
  busTxIdle : st = .txBusFlush → l.busTxIdle = m.busTxIdle

theorem SameInputs.symm {st : FsmState} {l m : Levels} (h : SameInputs st l m) : SameInputs st m l where
  diagDone hst := (h.diagDone hst).symm
  hostRxValid hst := (h.hostRxValid hst).symm
  busRxValid hst := (h.busRxValid hst).symm
  hostTxReady hst := (h.hostTxReady hst).symm
  busTxReady hst := (h.busTxReady hst).symm
  hostTxIdle hst := (h.hostTxIdle hst).symm
  busTxIdle hst := (h.busTxIdle hst).symm

section
variable {st : FsmState} {s : State} {levels : List Levels} {o : Outputs}
  (h : SameInputs st s.levels (s.reinput levels o).levels)
include h

theorem SameInputs.diagDone_eq {d : Diag} (hst : st = reportingState d) :
    (s.reinput levels o).levels.diagDone = s.levels.diagDone :=
  (h.diagDone (by rw [hst, reportOf_reportingState]; rfl)).symm

theorem SameInputs.rxValid_eq {ch : Chan} (hst : st = huntState ch ∨ st = readState ch) :
    (s.reinput levels o).rxValid ch = s.rxValid ch := by
  cases ch with
  | host => exact congrArg (· && !s.hostRx.isEmpty) (h.hostRxValid hst).symm
  | bus => exact congrArg (· && !s.busRx.isEmpty) (h.busRxValid hst).symm

theorem SameInputs.txReady_eq {ch : Chan} (hst : st = syncState ch ∨ st = bodyState ch) :
    (s.reinput levels o).txReady ch = s.txReady ch := by
  cases ch with
  | host => exact (h.hostTxReady hst).symm
  | bus => exact (h.busTxReady hst).symm

theorem SameInputs.txIdle_eq {ch : Chan} (hst : st = flushState ch) :
    (s.reinput levels o).txIdle ch = s.txIdle ch := by
  cases ch with
  | host => exact (h.hostTxIdle hst).symm
  | bus => exact (h.busTxIdle hst).symm

theorem Waits.reinput (hw : Waits st s) : Waits st (s.reinput levels o) := by
  cases hw with
  | report d hst hd => exact .report d hst ((h.diagDone_eq hst).trans hd)
  | byte ch hst hv => exact .byte ch hst ((h.rxValid_eq hst).trans hv)
  | sink ch hst hi hr => exact .sink ch hst hi ((h.txReady_eq hst).trans hr)
  | flush ch hst hi => exact .flush ch hst ((h.txIdle_eq hst).trans hi)
end

section
variable (s : State) (levels : List Levels) (o : Outputs)

theorem rxQueue_reinput (ch : Chan) : (s.reinput levels o).rxQueue ch = s.rxQueue ch := by cases ch <;> rfl

theorem takenFrom_reinput (ch : Chan) (r : Byte) (q : List Byte) :
    takenFrom ch r q (s.reinput levels o) = (takenFrom ch r q s).reinput levels o := by
  cases ch <;> rfl

theorem stored_reinput (ch : Chan) (r v : Byte) (q : List Byte) :
    stored ch r v q (s.reinput levels o) =
      (stored ch r v q s).reinput levels { o with unescaped := some v } := by
  simp only [stored, afterLogical, takenFrom_reinput, storeLogical_eq]
  rfl

theorem checkFrame_reinput :
    checkFrame (s.reinput levels o) =
      (checkFrame s).reinput levels { o with equal := (checkFrame s).out.equal } := by
  rw [checkFrame_eq, checkFrame_eq]
  rfl

theorem forwardHost_reinput : forwardHost (s.reinput levels o) = (forwardHost s).reinput levels o := by
  rw [forwardHost_eq, forwardHost_eq]
  rfl

theorem afterFlush_reinput (ch : Chan) : afterFlush ch (s.reinput levels o) = (afterFlush ch s).reinput levels o := by
  cases ch <;> rfl

theorem resetBlock_reinput : resetBlock (s.reinput levels o) = (resetBlock s).reinput levels o := by
  simp only [resetBlock, setStatus_eq, setBusDir_eq]
  rfl
end

theorem checkFrame_out_of_eq {s : State} {o : Outputs} (ho : o = s.out) :
    { o with equal := (checkFrame s).out.equal } = (checkFrame s).out := by
  rw [ho, checkFrame_eq]

theorem stored_out_of_eq {s : State} {o : Outputs} (ch : Chan) (r v : Byte) (q : List Byte) (ho : o = s.out) :
    { o with unescaped := some v } = (stored ch r v q s).out := by
  simp [ho, stored, storeLogical_eq, afterLogical]

/-- The same firing, with other inputs and other old outputs, leaves the same state up to them. -/
theorem Fires.reinput {st : FsmState} {s u : State} {levels : List Levels} {o : Outputs}
    (h : SameInputs st s.levels (s.reinput levels o).levels) (hf : Fires st s u) :
    ∃ o', Fires st (s.reinput levels o) (u.reinput levels o') ∧ (o = s.out → o' = u.out) := by
  cases hf with
  | delivered d hst hd => exact ⟨o, .delivered d hst ((h.diagDone_eq hst).trans hd), id⟩
  | found ch q hst hv hq =>
    have hfound := Fires.found ch q hst ((h.rxValid_eq (.inl hst)).trans hv) ((rxQueue_reinput ..).trans hq)
    rw [takenFrom_reinput] at hfound
    exact ⟨o, hfound, fun ho => by simpa using ho⟩
  | skipped ch r q hst hv hq hr =>
    have hskipped := Fires.skipped ch r q hst ((h.rxValid_eq (.inl hst)).trans hv) ((rxQueue_reinput ..).trans hq) hr
    rw [takenFrom_reinput] at hskipped
    exact ⟨o, hskipped, fun ho => by simpa using ho⟩
  | marked ch q hst hv hq hp =>
    have hmarked := Fires.marked ch q hst ((h.rxValid_eq (.inr hst)).trans hv) ((rxQueue_reinput ..).trans hq) hp
    rw [takenFrom_reinput] at hmarked
    exact ⟨{ o with unescaped := none }, hmarked, fun ho => by simp [ho]⟩
  | stored ch r v q hst hv hq hr hi =>
    have hstored := Fires.stored ch r v q hst ((h.rxValid_eq (.inr hst)).trans hv) ((rxQueue_reinput ..).trans hq) hr hi
    rw [stored_reinput] at hstored
    exact ⟨_, hstored, stored_out_of_eq ch r v q⟩
  | dropped hst hc =>
    have hdropped := Fires.dropped (s := s.reinput levels o) hst (by rw [checkFrame_reinput]; exact hc)
    rw [checkFrame_reinput] at hdropped
    exact ⟨_, hdropped, checkFrame_out_of_eq⟩
  | absorbed hst hc hb =>
    have habsorbed := Fires.absorbed (s := s.reinput levels o) hst (by rw [checkFrame_reinput]; exact hc)
      (by rw [checkFrame_reinput]; exact hb)
    rw [checkFrame_reinput] at habsorbed
    exact ⟨_, habsorbed, checkFrame_out_of_eq⟩
  | forwarded hst hc hb =>
    have hforwarded := Fires.forwarded (s := s.reinput levels o) hst (by rw [checkFrame_reinput]; exact hc)
      (by rw [checkFrame_reinput]; exact hb)
    rw [checkFrame_reinput, forwardHost_reinput] at hforwarded
    exact ⟨_, hforwarded, fun ho => by rw [checkFrame_out_of_eq ho, forwardHost_eq]⟩
  | rightReply hst hc =>
    have hright := Fires.rightReply (s := s.reinput levels o) hst (by rw [checkFrame_reinput]; exact hc)
    rw [checkFrame_reinput] at hright
    exact ⟨_, hright, checkFrame_out_of_eq⟩
  | wrongReply hst hc =>
    have hwrong := Fires.wrongReply (s := s.reinput levels o) hst (by rw [checkFrame_reinput]; exact hc)
    rw [checkFrame_reinput] at hwrong
    exact ⟨_, hwrong, checkFrame_out_of_eq⟩
  | syncSent ch hst hr => exact ⟨o, .syncSent ch hst ((h.txReady_eq (.inl hst)).trans hr), id⟩
  | markerSent ch hst hr hi hp hv =>
    exact ⟨_, .markerSent ch hst ((h.txReady_eq (.inr hst)).trans hr) hi hp hv, fun ho => by rw [ho]; rfl⟩
  | byteSent ch hst hr hi hv =>
    exact ⟨_, .byteSent ch hst ((h.txReady_eq (.inr hst)).trans hr) hi hv, fun ho => by rw [ho]; rfl⟩
  | flushed ch hst hi =>
    have hflushed := Fires.flushed ch hst ((h.txIdle_eq hst).trans hi)
    rw [afterFlush_reinput] at hflushed
    exact ⟨o, hflushed, fun ho => by cases ch <;> exact ho⟩

/-- Two outcomes that agree up to the inputs to come and the combinational outputs; if the outputs before the step were
the same, so are those after it. -/
inductive SameOutcome (levels : List Levels) (o before : Outputs) :
    Host.Outcome State Fault Refusal → Host.Outcome State Fault Refusal → Prop where
  | next (u : State) (o' : Outputs) (ho : o = before → o' = u.out) :
      SameOutcome levels o before (.next u) (.next (u.reinput levels o'))
  | fault (r : Fault) : SameOutcome levels o before (.fault r) (.fault r)

theorem SameOutcome.finishCycle {levels : List Levels} {o before : Outputs}
    {x y : Host.Outcome State Fault Refusal} (h : SameOutcome levels o before x y) :
    SameOutcome levels.tail o before (Machine.finishCycle x) (Machine.finishCycle y) := by
  cases h with
  | next u o' ho => exact .next (endCycle u) o' ho
  | fault r => exact .fault r

theorem SameOutcome.of_next {levels : List Levels} {o before : Outputs} {u : State}
    {y : Host.Outcome State Fault Refusal} (h : SameOutcome levels o before (.next u) y) :
    ∃ o', y = .next (u.reinput levels o') ∧ (o = before → o' = u.out) := by
  cases h with
  | next u o' ho => exact ⟨o', rfl, ho⟩

theorem SameOutcome.of_fault {levels : List Levels} {o before : Outputs} {r : Fault}
    {y : Host.Outcome State Fault Refusal} (h : SameOutcome levels o before (.fault r) y) : y = .fault r := by
  cases h with
  | fault r => rfl

/-- A step looks only at the inputs its state waits for, and at no old output. -/
theorem exec_reinput {st : FsmState} {s : State} {levels : List Levels} {o : Outputs}
    (h : SameInputs st s.levels (s.reinput levels o).levels) :
    SameOutcome levels o s.out (exec (stepInstr st) s) (exec (stepInstr st) (s.reinput levels o)) := by
  obtain hw | ⟨u, hf⟩ | ⟨_, _, hfault⟩ := waits_or_fires_or_faults st s
  · rw [exec_of_waits hw, exec_of_waits (hw.reinput h)]
    exact .next s o id
  · obtain ⟨o', hf', ho⟩ := hf.reinput h
    rw [exec_of_fires hf, exec_of_fires hf']
    exact .next u o' ho
  · have hback : (s.reinput levels o).reinput s.schedule s.out = s := rfl
    rw [hfault]
    obtain hw | ⟨u, hf⟩ | ⟨_, _, hfault'⟩ := waits_or_fires_or_faults st (s.reinput levels o)
    · have hw' : Waits st s := 
        Waits.reinput (s := s.reinput levels o) (levels := s.schedule) (o := s.out) h.symm hw
      rw [exec_of_waits hw'] at hfault
      cases hfault
    · obtain ⟨o', hf', _⟩ := hf.reinput (levels := s.schedule) (o := s.out) h.symm
      rw [hback] at hf'
      rw [exec_of_fires hf'] at hfault
      cases hfault
    · rw [hfault']
      exact .fault _

/-- The same for a cycle, whose end uses up the sample it looked at. -/
theorem step_reinput {s : State} {levels : List Levels} {o : Outputs}
    (hrst : s.levels.rst = (s.reinput levels o).levels.rst)
    (h : SameInputs s.state s.levels (s.reinput levels o).levels) :
    SameOutcome levels.tail o s.out (step s) (step (s.reinput levels o)) := by
  cases hr : s.levels.rst with
  | true =>
    rw [step_of_rst hr, step_of_rst (hrst ▸ hr), resetBlock_reinput]
    exact .next (endReset (resetBlock s)) o fun ho => by simpa using ho
  | false =>
    rw [step_of_not_rst hr, step_of_not_rst (hrst ▸ hr)]
    have hstate : (s.reinput levels o).state = s.state := rfl
    rw [hstate]
    exact (exec_reinput h).finishCycle

/-- A cycle uses up one sample of the input levels. -/
theorem step_schedule {s t : State} (h : step s = .next t) : t.schedule = s.schedule.tail := by
  obtain ⟨_, rfl⟩ | ⟨_, _, rfl⟩ | ⟨_, u, hf, rfl⟩ := step_fires h
  · simp
  · rfl
  · rw [endCycle_schedule, hf.schedule_eq]

theorem step_ne_refused {s : State} {r : Refusal} : step s ≠ .refused r := by
  intro hrefused
  cases hr : s.levels.rst with
  | true =>
    rw [step_of_rst hr] at hrefused
    cases hrefused
  | false =>
    rw [step_of_not_rst hr] at hrefused
    obtain hw | ⟨u, hf⟩ | ⟨_, _, hfault⟩ := waits_or_fires_or_faults s.state s
    · rw [exec_of_waits hw] at hrefused
      cases hrefused
    · rw [exec_of_fires hf] at hrefused
      cases hrefused
    · rw [hfault] at hrefused
      cases hrefused

/-- A cycle with other input levels, where its state does not look at the difference. -/
theorem step_with_levels {s : State} {levels : List Levels}
    (hrst : s.levels.rst = (s.reinput levels s.out).levels.rst)
    (h : SameInputs s.state s.levels (s.reinput levels s.out).levels) :
    (∃ u, step s = .next u ∧ step { s with schedule := levels } = .next { u with schedule := levels.tail }) ∨
      ∃ r, step s = .fault r ∧ step { s with schedule := levels } = .fault r := by
  have hsame := step_reinput hrst h
  cases hstep : step s with
  | next u =>
    rw [hstep] at hsame
    obtain ⟨o', hnext, ho⟩ := hsame.of_next
    rw [ho rfl] at hnext
    exact .inl ⟨u, rfl, hnext⟩
  | fault r =>
    rw [hstep] at hsame
    exact .inr ⟨r, rfl, hsame.of_fault⟩
  | refused r => exact absurd hstep step_ne_refused

/-- Settles O42: the two samples differ only in what the state does not wait for, and both are used up. -/
theorem unusedInputsAreIgnored : Obligations.UnusedInputsAreIgnored := by
  intro s l m later hrst hdiag hhostRx hbusRx hhostTx hbusTx hhostIdle hbusIdle
  have hsame : SameInputs s.state l m := ⟨hdiag, hhostRx, hbusRx, hhostTx, hbusTx, hhostIdle, hbusIdle⟩
  obtain ⟨u, hl, hm⟩ | ⟨r, hl, hm⟩ :=
    step_with_levels (s := { s with schedule := l :: later }) (levels := m :: later) hrst hsame
  · have hrest : later = u.schedule := (step_schedule hl).symm
    rw [hl, hm, List.tail_cons, hrest]
  · rw [hl, hm]

/-- Settles O43: the same levels, and other combinational outputs. -/
theorem staleOutputsAreNeverRead : Obligations.StaleOutputsAreNeverRead := by
  intro s t o hstep
  have hsame : SameInputs s.state s.levels (s.reinput s.schedule o).levels :=
    ⟨fun _ => rfl, fun _ => rfl, fun _ => rfl, fun _ => rfl, fun _ => rfl, fun _ => rfl, fun _ => rfl⟩
  have houtcome := step_reinput (s := s) (o := o) rfl hsame
  rw [hstep] at houtcome
  obtain ⟨o', hnext, _⟩ := houtcome.of_next
  rw [← step_schedule hstep] at hnext
  exact ⟨o', hnext⟩

/-! ### `bus_sense` -/

/-- A cycle commutes with blanking `bus_sense`. -/
theorem step_blindToSense (s : State) :
    (∃ t, step s = .next t ∧ step (blindToSense s) = .next (blindToSense t)) ∨
      ∃ r, step s = .fault r ∧ step (blindToSense s) = .fault r := by
  have hlevels : (blindToSense s).levels =
      { s.levels with busSense := (blindToSense s).levels.busSense } := by
    cases hs : s.schedule <;> simp [State.levels, blindToSense, hs]
  have hsame : SameInputs s.state s.levels (blindToSense s).levels := by
    rw [hlevels]
    exact ⟨fun _ => rfl, fun _ => rfl, fun _ => rfl, fun _ => rfl, fun _ => rfl, fun _ => rfl, fun _ => rfl⟩
  have hrst : s.levels.rst = (blindToSense s).levels.rst := by rw [hlevels]
  obtain ⟨u, hs, hb⟩ | hfault := step_with_levels hrst hsame
  · refine .inl ⟨u, hs, ?_⟩
    rw [← List.map_tail, ← step_schedule hs] at hb
    exact hb
  · exact .inr hfault

theorem run_succ_fault {n : Nat} {s : State} {r : Fault} (h : step s = .fault r) :
    Sys2Proof.core.run (n + 1) s = .fault r := by
  have hstep : Sys2Proof.core.step s = .fault r := h
  simp only [Host.Core.run, hstep]

/-- Settles O23: a run commutes with blanking `bus_sense`, cycle by cycle. -/
theorem busSenseHasNoEffect : Obligations.BusSenseHasNoEffect := by
  refine ⟨fun _ _ => rfl, fun n => ?_⟩
  induction n with
  | zero => exact fun _ => rfl
  | succ n ih =>
    intro s
    obtain ⟨t, hs, hb⟩ | ⟨r, hs, hb⟩ := step_blindToSense s
    · rw [run_succ hs, run_succ hb, ih]
    · rw [run_succ_fault hs, run_succ_fault hb]

end Sys2Proof.Machine
end

section
/-! PROOFS. Who writes what (10_state.md sections 2 to 5 and 7): each operation against the fields it leaves alone. -/

namespace Sys2Proof.Machine

/-- What decodes from a state code is a step (R72, R75). -/
theorem step_of_decode_fsm {i : Instr} (h : decode .fsm (encode i) = .ok i []) : ∃ st, i = stepInstr st := by
  cases hw : encode i with
  | nil => rw [hw] at h; cases h
  | cons b w =>
    have hbyte : (decodeByte .fsm b).withRest w = .ok i [] := by
      rw [hw] at h
      exact h
    simp only [decodeByte] at hbyte
    split at hbyte
    · cases hbyte
      exact ⟨_, rfl⟩
    · cases hbyte

/-- One handshake of a report: it waits, delivers or starts (R177, R178). -/
theorem report_cases (d : Diag) (s : State) :
    report d s = s ∨ report d s = startReport d s ∨
      report d s = { s with
        diagReq := false, state := afterReport d, idx := if d = .busCsum then 0#9 else s.idx,
        now := s.now ++ [.diag d.code] } := by
  unfold report
  split
  · cases hd : s.levels.diagDone with
    | false => exact .inl (deliverReport_waiting hd)
    | true => exact .inr (.inr (deliverReport_done hd))
  · exact .inr (.inl rfl)

/-- An operation of the escaper by itself: it is blocked, or it has its effect (R86 to R88). -/
theorem exec_escaper_cases {i : Instr} {s t : State} (ch : Chan) (v : Byte) (h : exec i s = .next t)
    (hi : i ∈ [Instr.escPass ch v, .escPfxD0 ch, .escPfxE0 ch, .escArg ch v]) :
    t = s ∨ ∃ es o, t = { s with now := es, out := o } ∧ i = .escPass ch v ∨
      t = { s with now := es, out := o, escTxPending := t.escTxPending } ∧ i ≠ .escPass ch v := by
  cases hr : s.txReady ch with
  | false =>
    rw [escaperOperationsWait s ch hr i v hi] at h
    cases h
    exact .inl rfl
  | true =>
    obtain ⟨hpass, hd0, he0, harg⟩ := escaperOperations s ch hr
    simp only [List.mem_cons, List.not_mem_nil, or_false] at hi
    obtain rfl | rfl | rfl | rfl := hi
    · rw [hpass] at h
      cases h
      exact .inr ⟨_, _, .inl ⟨rfl, rfl⟩⟩
    · rw [hd0] at h
      cases h
      exact .inr ⟨_, _, .inr ⟨rfl, nofun⟩⟩
    · rw [he0] at h
      cases h
      exact .inr ⟨_, _, .inr ⟨rfl, nofun⟩⟩
    · rw [harg] at h
      cases h
      exact .inr ⟨_, _, .inr ⟨rfl, nofun⟩⟩

/-- Settles O38: the ways of firing for the steps, and one record update for each of the other operations. -/
theorem writtenOnlyBy : Obligations.WrittenOnlyBy := by
  intro i s t h
  by_cases hi : ∃ st, i = stepInstr st
  · obtain ⟨st, rfl⟩ := hi
    refine ⟨fun _ => .inr (.inl ⟨st, rfl⟩), ?_⟩
    obtain ⟨_, rfl⟩ | hf := exec_fires h
    · simp
    clear h
    cases hf with
    | delivered d hst => subst hst; cases d <;> simp [stepInstr, reportingState, State.cell]
    | found ch q hst => subst hst; cases ch <;> simp [stepInstr, huntState, takenFrom, State.cell]
    | skipped ch r q hst => subst hst; cases ch <;> simp [stepInstr, huntState, takenFrom, State.cell]
    | marked ch q hst => subst hst; cases ch <;> simp [stepInstr, readState, takenFrom, State.cell]
    | stored ch r v q hst =>
      subst hst
      cases ch <;> simp [stepInstr, readState, stored, storeLogical_eq, afterLogical, takenFrom]
    | dropped hst => subst hst; simp [stepInstr]
    | absorbed hst => subst hst; simp [stepInstr]
    | forwarded hst => subst hst; simp [stepInstr, forwardHost_eq, State.cell]
    | rightReply hst => subst hst; simp [stepInstr, State.cell]
    | wrongReply hst => subst hst; simp [stepInstr]
    | syncSent ch hst => subst hst; cases ch <;> simp [stepInstr, syncState, State.cell]
    | markerSent ch hst => subst hst; cases ch <;> simp [stepInstr, bodyState, State.cell]
    | byteSent ch hst => subst hst; cases ch <;> simp [stepInstr, bodyState, State.cell]
    | flushed ch hst => subst hst; cases ch <;> simp [stepInstr, flushState, afterFlush, State.cell]
  · cases i with
    | huntSync ch => cases h; simp [State.cell]
    | huntSkip ch r => cases h; simp [State.cell]
    | unescPfx => cases h; simp
    | unescLit r => cases h; simp
    | unescArg c => cases h; simp
    | unescBatch raw => cases h; simp [State.cell]
    | escPass ch v =>
      obtain rfl | ⟨_, _, ⟨rfl, _⟩ | ⟨_, hne⟩⟩ := exec_escaper_cases ch v h (by simp)
      · simp
      · simp [State.cell]
      · exact absurd rfl hne
    | escPfxD0 ch =>
      obtain rfl | ⟨_, _, ⟨_, hne⟩ | ⟨ht, _⟩⟩ := exec_escaper_cases ch 0#8 h (by simp)
      · simp
      · cases hne
      · rw [ht]; simp [State.cell]
    | escPfxE0 ch =>
      obtain rfl | ⟨_, _, ⟨_, hne⟩ | ⟨ht, _⟩⟩ := exec_escaper_cases ch 0#8 h (by simp)
      · simp
      · cases hne
      · rw [ht]; simp [State.cell]
    | escArg ch v =>
      obtain rfl | ⟨_, _, ⟨_, hne⟩ | ⟨ht, _⟩⟩ := exec_escaper_cases ch v h (by simp)
      · simp
      · cases hne
      · rw [ht]; simp [State.cell]
    | escBatch logical => cases h; simp [State.cell]
    | csumClr => cases h; simp
    | csumAdd din => cases h; simp
    | csumCmp cmp => cases h; simp
    | csumRange bytes => cases h; simp [State.cell]
    | dirAcq => cases h; simp
    | dirRel => cases h; simp
    | statOn => cases h; simp
    | statOff => cases h; simp
    | senseNop b => cases h; simp
    | diagStartup =>
      cases h
      obtain ht | ht | ht := report_cases .startup s <;> rw [ht] <;> simp [State.cell]
    | diagHostCsum =>
      cases h
      obtain ht | ht | ht := report_cases .hostCsum s <;> rw [ht] <;> simp [State.cell]
    | diagResetAbsorbed =>
      cases h
      obtain ht | ht | ht := report_cases .resetAbsorbed s <;> rw [ht] <;> simp [State.cell]
    | diagBusCsum =>
      cases h
      obtain ht | ht | ht := report_cases .busCsum s <;> rw [ht] <;> simp [State.cell]
    | _ => exact absurd (step_of_decode_fsm rfl) hi

end Sys2Proof.Machine
end

section
/-! PROOFS. Runs in which every handshake is granted: stages of a run, one after the other, with what each adds to the
trace. -/

namespace Sys2Proof.Machine

/-- Some cycles without reset: the run from `s` to `t`, and the elements it adds to the trace. -/
structure Stage (s t : State) (n : Nat) (es : List (List Event)) : Prop where
  run : Sys2Proof.core.run n s = .next t
  trace : t.trace = s.trace ++ es
  runs : t.runs = s.runs
  now : t.now = s.now

theorem Stage.refl (s : State) : Stage s s 0 [] := ⟨rfl, (List.append_nil _).symm, rfl, rfl⟩

/-- A run goes on from where its first part ends. -/
theorem run_add {m : Nat} (n : Nat) {s t : State} (h : Sys2Proof.core.run m s = .next t) :
    Sys2Proof.core.run (m + n) s = Sys2Proof.core.run n t := by
  induction m generalizing s with
  | zero =>
    cases Host.Outcome.next.inj h
    rw [Nat.zero_add]
  | succ m ih =>
    obtain ⟨u, hstep, hrest⟩ := run_succ_next h
    rw [Nat.add_right_comm, run_succ hstep, ih hrest]

theorem Stage.trans {s t u : State} {m n : Nat} {es fs : List (List Event)} (h : Stage s t m es)
    (h' : Stage t u n fs) : Stage s u (m + n) (es ++ fs) where
  run := (run_add n h.run).trans h'.run
  trace := by rw [h'.trace, h.trace, List.append_assoc]
  runs := h'.runs.trans h.runs
  now := h'.now.trans h.now

theorem Stage.inv {s t : State} {n : Nat} {es : List (List Event)} (h : Stage s t n es) (hs : Inv s) : Inv t :=
  run_induction stepKeepsInvariant n s t hs h.run

/-- The step that fires, as a stage of one cycle: its events, if any, are one element of the trace. -/
theorem stage_of_fires {s u : State} (hrst : s.levels.rst = false) (hnow : s.now = []) (hf : Fires s.state s u) :
    Stage s (endCycle u) 1 (if u.now = [] then [] else [u.now]) where
  run := run_succ (step_of_fires hrst hf)
  trace := by
    rw [endCycle_trace, State.joined, hf.trace_eq]
    split <;> simp
  runs := hf.runs_eq
  now := hnow.symm

/-! ### Granted handshakes -/

theorem run_schedule {n : Nat} {s t : State} (h : Sys2Proof.core.run n s = .next t) :
    t.schedule = s.schedule.drop n := by
  induction n generalizing s with
  | zero =>
    cases Host.Outcome.next.inj h
    rfl
  | succ n ih =>
    obtain ⟨u, hstep, hrest⟩ := run_succ_next h
    rw [ih hrest, step_schedule hstep, List.drop_tail]

/-- What is granted from the start of a run is granted from the end of its first part on. -/
theorem Stage.grants {s t : State} {m : Nat} (n : Nat) {es : List (List Event)} (h : Stage s t m es)
    (hg : grantsFor (m + n) s) : grantsFor n t := by
  obtain ⟨hlen, hall⟩ := hg
  rw [grantsFor, run_schedule h.run]
  refine ⟨by rw [List.length_drop]; omega, fun l hl => hall l ?_⟩
  rw [List.take_drop] at hl
  exact List.mem_of_mem_drop hl

theorem grantsFor.mono {m n : Nat} {s : State} (h : grantsFor n s) (hmn : m ≤ n) : grantsFor m s :=
  ⟨hmn.trans h.1, fun l hl => h.2 l ((List.take_sublist_take_left hmn).subset hl)⟩

/-- The levels of a cycle in which the environment grants every handshake. -/
theorem grantsFor.levels {n : Nat} {s : State} (h : grantsFor (n + 1) s) : isGranting s.levels = true := by
  obtain ⟨hlen, hall⟩ := h
  cases hs : s.schedule with
  | nil => simp [hs] at hlen
  | cons l later => exact hall s.levels (by simp [hs, levels_of_cons hs])

section
variable {n : Nat} {s : State} (h : grantsFor (n + 1) s)
include h

theorem grantsFor.rst : s.levels.rst = false := by
  have := h.levels
  simp only [isGranting, Bool.and_eq_true, Bool.not_eq_true'] at this
  simp only [this]

theorem grantsFor.diagDone : s.levels.diagDone = true := by
  have := h.levels
  simp only [isGranting, Bool.and_eq_true] at this
  simp only [this]

theorem grantsFor.txReady (ch : Chan) : s.txReady ch = true := by
  have := h.levels
  simp only [isGranting, Bool.and_eq_true] at this
  cases ch <;> simp only [State.txReady, this]

theorem grantsFor.txIdle (ch : Chan) : s.txIdle ch = true := by
  have := h.levels
  simp only [isGranting, Bool.and_eq_true] at this
  cases ch <;> simp only [State.txIdle, this]

theorem grantsFor.rxValid {ch : Chan} {r : Byte} {q : List Byte} (hq : s.rxQueue ch = r :: q) :
    s.rxValid ch = true := by
  have := h.levels
  simp only [isGranting, Bool.and_eq_true] at this
  cases ch <;> simp_all [State.rxValid, State.rxQueue]
end

/-! ### The hunt -/

theorem takenTrace_cons (ch : Chan) (r : Byte) (raw : List Byte) :
    takenTrace ch (r :: raw) = [rxEvent ch r] :: takenTrace ch raw := by
  cases ch <;> rfl

theorem takenTrace_append (ch : Chan) (a b : List Byte) :
    takenTrace ch (a ++ b) = takenTrace ch a ++ takenTrace ch b := List.map_append

/-- A byte taken, as a stage of one cycle. -/
theorem stage_of_taken {s u : State} {ch : Chan} {r : Byte} (hrst : s.levels.rst = false) (hnow : s.now = [])
    (hf : Fires s.state s u) (hu : u.now = s.now ++ [rxEvent ch r]) :
    Stage s (endCycle u) 1 (takenTrace ch [r]) := by
  have hstage := stage_of_fires hrst hnow hf
  rw [hu, hnow] at hstage
  rw [takenTrace_cons]
  simpa [takenTrace] using hstage

/-- The raw bytes that the environment holds for the other channel are left alone. -/
def SameOtherQueue (ch : Chan) (s t : State) : Prop := ∀ c, c ≠ ch → t.rxQueue c = s.rxQueue c

theorem SameOtherQueue.trans {ch : Chan} {s t u : State} (h : SameOtherQueue ch s t) (h' : SameOtherQueue ch t u) :
    SameOtherQueue ch s u := fun c hc => (h' c hc).trans (h c hc)

/-- The hunt takes the noise and the sync byte, one byte a cycle (R117, R131). -/
theorem hunt_stage {ch : Chan} {noise rest : List Byte} (hnoise : Config.sync ∉ noise) {s : State}
    (hst : s.state = huntState ch) (hnow : s.now = []) (hq : s.rxQueue ch = noise ++ Config.sync :: rest)
    (hg : grantsFor (noise.length + 1) s) :
    ∃ t, Stage s t (noise.length + 1) (takenTrace ch (noise ++ [Config.sync])) ∧ t.state = readState ch ∧
      t.idx = 0#9 ∧ t.escRxPending = s.escRxPending ∧ t.rxQueue ch = rest ∧ SameOtherQueue ch s t := by
  induction noise generalizing s with
  | nil =>
    have hf : Fires s.state s _ := .found ch rest hst (hg.rxValid hq) hq
    exact ⟨_, stage_of_taken hg.rst hnow hf (takenFrom_now ..), rfl, rfl, by simp, by simp,
      fun c hc => by simp [hc]⟩
  | cons r noise ih =>
    obtain ⟨hr, hnoise⟩ := List.ne_and_not_mem_of_not_mem_cons hnoise
    have hf : Fires s.state s _ := .skipped ch r (noise ++ Config.sync :: rest) hst (hg.rxValid hq) hq hr.symm
    have hstage := stage_of_taken hg.rst hnow hf (takenFrom_now ..)
    have hg' := hstage.grants (noise.length + 1) (hg.mono (by simp; omega))
    obtain ⟨t, ht, hst', hidx, hrx, hrest, hother⟩ := ih hnoise rfl (hstage.now.trans hnow) (by simp) hg'
    have hall := hstage.trans ht
    rw [← takenTrace_append, Nat.add_comm] at hall
    refine ⟨t, hall, hst', hidx, hrx.trans (by simp), hrest, SameOtherQueue.trans (fun c hc => ?_) hother⟩
    simp [hc]

/-! ### A frame is read -/

theorem State.cells_succ (s : State) (n : Nat) : s.cells (n + 1) = s.cells n ++ [s.cell n] := by
  simp [State.cells, List.range_succ]

theorem State.length_cells (s : State) (n : Nat) : (s.cells n).length = n := by simp [State.cells]

theorem State.cells_congr {s t : State} {n : Nat} (h : ∀ a, a < n → t.cell a = s.cell a) : t.cells n = s.cells n :=
  List.map_congr_left fun a ha => h a (List.mem_range.mp ha)

theorem State.getElem?_cells (s : State) {a n : Nat} (h : a < n) : (s.cells n)[a]? = some (s.cell a) := by
  simp [State.cells, h]

/-- The registers that reading or sending a frame leaves alone (10_state.md). -/
structure Kept (s t : State) : Prop where
  csum : t.csum = s.csum
  busDir : t.busDir = s.busDir
  status : t.status = s.status
  diagReq : t.diagReq = s.diagReq
  diagCode : t.diagCode = s.diagCode

theorem Kept.refl (s : State) : Kept s s := ⟨rfl, rfl, rfl, rfl, rfl⟩

theorem Kept.trans {s t u : State} (h : Kept s t) (h' : Kept t u) : Kept s u :=
  ⟨h'.csum.trans h.csum, h'.busDir.trans h.busDir, h'.status.trans h.status, h'.diagReq.trans h.diagReq,
    h'.diagCode.trans h.diagCode⟩

/-- A raw sequence that gives no logical byte and ends with no marker outstanding is empty. -/
theorem eq_nil_of_unescape {raw : List Byte} (h : unescape raw = ([], false)) : raw = [] := by
  match raw, h with
  | [], _ => rfl
  | r :: raw, h =>
    by_cases hr : r = Config.esc
    · subst hr
      cases raw with
      | nil => simp [unescape] at h
      | cons c raw => simp at h
    · rw [unescape_cons_of_ne_esc hr] at h
      simp at h

/-- Part of a frame has been read: the logical bytes of `frame` before `idx` are stored, and `raw` is left, which
unescapes to the others. -/
structure ReadsOn (ch : Chan) (frame raw : List Byte) (s : State) : Prop where
  state : s.state = readState ch
  now : s.now = []
  size : ∃ len, frame[1]? = some len ∧ frame.length = len.toNat + 2
  body : ∃ body, body ≠ [] ∧ frame = s.cells s.idx.toNat ++ body ∧
    unescape (withPending s.escRxPending raw) = (body, false)

/-- The frame has been read: it is stored, and nothing but what reading writes has changed (R119, R120). -/
structure ReadTo (ch : Chan) (frame rest : List Byte) (s t : State) : Prop where
  state : t.state = validateState ch
  cells : t.cells frame.length = frame
  idx : t.idx.toNat = frame.length
  escRx : t.escRxPending = false
  queue : t.rxQueue ch = rest
  other : SameOtherQueue ch s t
  beyond : ∀ a, frame.length ≤ a → t.cell a = s.cell a
  escTx : t.escTxPending = s.escTxPending
  kept : Kept s t

theorem ReadTo.of_step {ch : Chan} {frame rest : List Byte} {s u t : State} (h : ReadTo ch frame rest u t)
    (hother : SameOtherQueue ch s u) (hbeyond : ∀ a, frame.length ≤ a → u.cell a = s.cell a)
    (htx : u.escTxPending = s.escTxPending) (hkept : Kept s u) : ReadTo ch frame rest s t where
  state := h.state
  cells := h.cells
  idx := h.idx
  escRx := h.escRx
  queue := h.queue
  other := hother.trans h.other
  beyond a ha := (h.beyond a ha).trans (hbeyond a ha)
  escTx := h.escTx.trans htx
  kept := hkept.trans h.kept

section
variable {ch : Chan} {frame : List Byte} {s : State}

theorem ReadsOn.idx_lt_length {raw : List Byte} (h : ReadsOn ch frame raw s) : s.idx.toNat < frame.length := by
  obtain ⟨body, hne, hframe, _⟩ := h.body
  have := List.length_pos_iff.mpr hne
  rw [hframe, List.length_append, State.length_cells]
  omega

theorem ReadsOn.idx_lt {raw : List Byte} (h : ReadsOn ch frame raw s) : s.idx.toNat < 257 := by
  obtain ⟨len, _, hsize⟩ := h.size
  have := h.idx_lt_length
  have := len.isLt
  omega

/-- After a marker the same bytes are still to come (R96). -/
theorem ReadsOn.marked {raw q : List Byte} (h : ReadsOn ch frame (Config.esc :: raw) s) (hp : s.escRxPending = false) :
    ReadsOn ch frame raw (endCycle (unescMark (takenFrom ch Config.esc q s))) := by
  obtain ⟨body, hne, hframe, hbody⟩ := h.body
  refine ⟨by simpa using h.state, rfl, h.size, body, hne, ?_, ?_⟩
  · rw [hframe]
    simp [State.cells]
  · rw [unescape_withPending_cons, unescapeBeat_eq, hp] at hbody
    simpa using hbody

/-- A store moves one byte from those to come to those stored (R119). -/
theorem stored_cells (r v : Byte) (q : List Byte) :
    (stored ch r v q s).cells (s.idx.toNat + 1) = s.cells s.idx.toNat ++ [v] := by
  rw [State.cells_succ, stored_cell, if_pos rfl, State.cells_congr fun a ha => ?_]
  rw [stored_cell, if_neg (Nat.ne_of_lt ha)]

/-- The bytes to come before a logical byte is read are that byte and those to come after it. -/
theorem ReadsOn.logical {r v : Byte} {raw : List Byte} (h : ReadsOn ch frame (r :: raw) s)
    (hgives : givesLogical s.escRxPending r v) :
    ∃ body, frame = s.cells s.idx.toNat ++ v :: body ∧ unescape raw = (body, false) := by
  obtain ⟨body, _, hframe, hbody⟩ := h.body
  rw [unescape_withPending_cons, unescapeBeat_of_givesLogical hgives] at hbody
  obtain ⟨hcons, hpending⟩ := Prod.mk.inj hbody
  exact ⟨(unescape raw).1, by rw [hframe, ← hcons]; rfl, Prod.ext rfl hpending⟩

/-- The completion test holds exactly after the last byte (R119, R120). -/
theorem ReadsOn.complete_iff {r v : Byte} {raw body q : List Byte} (h : ReadsOn ch frame (r :: raw) s)
    (hframe : frame = s.cells s.idx.toNat ++ v :: body) :
    (2 ≤ s.idx.toNat + 1 ∧ s.idx.toNat + 1 = ((stored ch r v q s).cell 1).toNat + 2) ↔ body = [] := by
  obtain ⟨len, hlen, hsize⟩ := h.size
  have hcells : frame = (stored ch r v q s).cells (s.idx.toNat + 1) ++ body := by
    rw [stored_cells, hframe, List.append_assoc]
    rfl
  have hlength : frame.length = s.idx.toNat + 1 + body.length := by
    rw [hcells, List.length_append, State.length_cells]
  have hcell (hk : 2 ≤ s.idx.toNat + 1) : (stored ch r v q s).cell 1 = len := by
    have hget := State.getElem?_cells (stored ch r v q s) (a := 1) (Nat.lt_of_succ_le hk)
    rw [hcells, List.getElem?_append_left (by rw [State.length_cells]; omega), hget] at hlen
    exact Option.some.inj hlen
  rw [← List.length_eq_zero_iff]
  constructor
  · rintro ⟨hk, hend⟩
    rw [hcell hk] at hend
    omega
  · intro hbody
    have hk : 2 ≤ s.idx.toNat + 1 := by omega
    exact ⟨hk, by rw [hcell hk]; omega⟩
end

/-- Reading a frame, one raw byte a cycle. -/
theorem read_stage {ch : Chan} {frame raw rest : List Byte} {s : State} (h : ReadsOn ch frame raw s)
    (hq : s.rxQueue ch = raw ++ rest) (hg : grantsFor raw.length s) :
    ∃ t, Stage s t raw.length (takenTrace ch raw) ∧ ReadTo ch frame rest s t := by
  induction raw generalizing s with
  | nil =>
    obtain ⟨body, hne, _, hbody⟩ := h.body
    cases hp : s.escRxPending <;> simp [withPending, hp, unescape, Ne.symm hne] at hbody
  | cons r raw ih =>
    have hv := hg.rxValid hq
    have one_more {u t : State} (hu : Stage s u 1 (takenTrace ch [r]))
        (ht : Stage u t raw.length (takenTrace ch raw)) :
        Stage s t (r :: raw).length (takenTrace ch (r :: raw)) := by
      have hall := hu.trans ht
      rwa [← takenTrace_append, Nat.add_comm] at hall
    obtain ⟨hp, rfl⟩ | ⟨v, hgives⟩ := marker_or_givesLogical s.escRxPending r
    · have hf : Fires s.state s _ := .marked ch (raw ++ rest) h.state hv hq hp
      have hstage := stage_of_taken hg.rst h.now hf (takenFrom_now ..)
      obtain ⟨t, ht, hto⟩ := ih (h.marked hp) (by simp) (hstage.grants raw.length (hg.mono (by simp; omega)))
      refine ⟨t, one_more hstage ht, hto.of_step (fun c hc => by simp [hc]) (fun a _ => by simp) (by simp) ?_⟩
      constructor <;> simp
    · have hf : Fires s.state s _ := .stored ch r v (raw ++ rest) h.state hv hq hgives h.idx_lt
      have hstage := stage_of_taken hg.rst h.now hf (stored_now ..)
      obtain ⟨body, hframe, hbody⟩ := h.logical hgives
      have hcomplete := h.complete_iff (q := raw ++ rest) hframe
      have hstate := stored_state ch r v (raw ++ rest) h.idx_lt
      have hnext := toNat_idx_add_one h.idx_lt
      have hother : SameOtherQueue ch s (endCycle (stored ch r v (raw ++ rest) s)) := fun c hc => by simp [hc]
      have hbeyond : ∀ a, frame.length ≤ a → (endCycle (stored ch r v (raw ++ rest) s)).cell a = s.cell a := by
        intro a ha
        rw [endCycle_cell, stored_cell, if_neg]
        have := h.idx_lt_length
        omega
      have hkept : Kept s (endCycle (stored ch r v (raw ++ rest) s)) := by constructor <;> simp
      have hcells : frame = (endCycle (stored ch r v (raw ++ rest) s)).cells (s.idx.toNat + 1) ++ body := by
        rw [hframe, State.cells_congr (fun a _ => endCycle_cell _ a), stored_cells, List.append_assoc]
        rfl
      by_cases hdone : body = []
      · subst hdone
        obtain rfl := eq_nil_of_unescape hbody
        rw [if_pos (hcomplete.mpr rfl)] at hstate
        rw [List.append_nil] at hcells
        have hlength : frame.length = s.idx.toNat + 1 := by rw [hcells, State.length_cells]
        exact ⟨_, hstage, hstate, by rw [hlength, ← hcells], by simp [hnext, hlength], by simp, by simp, hother,
          hbeyond, by simp, hkept⟩
      · rw [if_neg (mt hcomplete.mp hdone)] at hstate
        have hnext' : ReadsOn ch frame raw (endCycle (stored ch r v (raw ++ rest) s)) := by
          refine ⟨hstate.trans h.state, rfl, h.size, body, hdone, ?_, ?_⟩
          · rw [endCycle_idx, stored_idx, hnext]
            exact hcells
          · simpa [withPending] using hbody
        obtain ⟨t, ht, hto⟩ := ih hnext' (by simp) (hstage.grants raw.length (hg.mono (by simp; omega)))
        exact ⟨t, one_more hstage ht, hto.of_step hother hbeyond (by simp) hkept⟩

/-- Settles O51: reading from the start of a frame. -/
theorem frameIsReceived : Obligations.FrameIsReceived := by
  intro ch s raw rest body len hbody hlen hsize hst hidx hrx hnow hq hg
  have hne : body ≠ [] := by
    rintro rfl
    simp at hlen
  have hstart : ReadsOn ch body raw s :=
    ⟨hst, hnow, ⟨len, hlen, hsize⟩, body, hne, by simp [hidx, State.cells], by rw [hrx]; exact hbody⟩
  obtain ⟨t, ht, hto⟩ := read_stage hstart hq hg
  exact ⟨t, ht.run, hto.state, hto.cells, hto.idx, hto.escRx, hto.queue, ht.trace, ht.runs, hto.beyond,
    hto.kept.csum, hto.kept.busDir, hto.kept.status, hto.kept.diagReq, hto.kept.diagCode, hto.escTx⟩

end Sys2Proof.Machine
end

section
/-! PROOFS. A frame is sent as its escaped form (40_byte_escaper.md section 2, 43_frame_relay_fsm.md section 2). -/

namespace Sys2Proof.Machine

theorem sentTrace_append (ch : Chan) (a b : List Byte) :
    sentTrace ch (a ++ b) = sentTrace ch a ++ sentTrace ch b := List.map_append

/-- A byte sent, as a stage of one cycle. -/
theorem stage_of_sent {s u : State} {ch : Chan} {b : Byte} (hrst : s.levels.rst = false) (hnow : s.now = [])
    (hf : Fires s.state s u) (hu : u.now = s.now ++ [txEvent ch b]) :
    Stage s (endCycle u) 1 (sentTrace ch [b]) := by
  have hstage := stage_of_fires hrst hnow hf
  rw [hu, hnow] at hstage
  simpa [sentTrace] using hstage

/-- Nothing has changed but the transmitter's own registers, the state and the trace. -/
structure SentFrom (s t : State) : Prop where
  escTx : t.escTxPending = false
  buf : t.buf = s.buf
  hostRx : t.hostRx = s.hostRx
  busRx : t.busRx = s.busRx
  escRx : t.escRxPending = s.escRxPending
  kept : Kept s t

theorem SentFrom.trans {s t u : State} (h : SentFrom s t) (h' : SentFrom t u) : SentFrom s u :=
  ⟨h'.escTx, h'.buf.trans h.buf, h'.hostRx.trans h.hostRx, h'.busRx.trans h.busRx, h'.escRx.trans h.escRx,
    h.kept.trans h'.kept⟩

/-- The state after the byte at `idx`: the frame goes on, or is flushed (R127). -/
def afterByte (ch : Chan) (s : State) : FsmState :=
  if s.idx.toNat + 1 = (s.cell 1).toNat + 2 then flushState ch else s.state

/-- One logical byte is sent, in one raw byte or two (R86 to R88). -/
theorem byte_stage {ch : Chan} {s : State} (hst : s.state = bodyState ch) (hnow : s.now = [])
    (htx : s.escTxPending = false) (hi : s.idx.toNat < 257) (hg : grantsFor (escape [s.current]).length s) :
    ∃ t, Stage s t (escape [s.current]).length (sentTrace ch (escape [s.current])) ∧ SentFrom s t ∧
      t.idx = s.idx + 1#9 ∧ t.state = afterByte ch s := by
  cases hv : isReserved s.current with
  | false =>
    rw [escape_cons_of_not_reserved hv, escape_nil] at hg ⊢
    have hf : Fires s.state s _ := .byteSent ch hst (hg.txReady ch) hi (.inr hv)
    rw [htx] at hf
    exact ⟨_, stage_of_sent hg.rst hnow hf rfl, ⟨rfl, rfl, rfl, rfl, rfl, ⟨rfl, rfl, rfl, rfl, rfl⟩⟩, rfl, rfl⟩
  | true =>
    rw [escape_cons_of_reserved hv, escape_nil] at hg ⊢
    have hf : Fires s.state s _ := .markerSent ch hst (hg.txReady ch) hi htx hv
    have hmarker := stage_of_sent hg.rst hnow hf rfl
    have hg' := hmarker.grants 1 hg
    have hf' : Fires (endCycle _).state (endCycle _) _ := .byteSent ch hst (hg'.txReady ch) hi (.inl rfl)
    have hsecond := stage_of_sent hg'.rst rfl hf' rfl
    have hall := hmarker.trans hsecond
    rw [← sentTrace_append] at hall
    exact ⟨_, hall, ⟨rfl, rfl, rfl, rfl, rfl, ⟨rfl, rfl, rfl, rfl, rfl⟩⟩, rfl, rfl⟩

/-- Sending the rest of a frame, from the byte at `idx` on. -/
theorem body_stage {ch : Chan} {body : List Byte} {s : State} (hst : s.state = bodyState ch) (hnow : s.now = [])
    (htx : s.escTxPending = false) (hne : body ≠ [])
    (hbody : (s.cells ((s.cell 1).toNat + 2)).drop s.idx.toNat = body) (hg : grantsFor (escape body).length s) :
    ∃ t, Stage s t (escape body).length (sentTrace ch (escape body)) ∧ SentFrom s t ∧
      t.state = flushState ch ∧ t.idx.toNat = (s.cell 1).toNat + 2 := by
  induction body generalizing s with
  | nil => exact absurd rfl hne
  | cons v body ih =>
    have hlt : s.idx.toNat < (s.cell 1).toNat + 2 := by
      have := congrArg List.length hbody
      simp only [List.length_drop, State.length_cells, List.length_cons] at this
      omega
    have hi : s.idx.toNat < 257 := by
      have := (s.cell 1).isLt
      omega
    have hdrop := List.drop_eq_getElem_cons (l := s.cells ((s.cell 1).toNat + 2)) (i := s.idx.toNat)
      (by rw [State.length_cells]; exact hlt)
    rw [hbody] at hdrop
    obtain ⟨hv, hrest⟩ := List.cons.inj hdrop
    have hv : v = s.current := by simpa [State.cells, State.current] using hv
    have hsplit : escape (v :: body) = escape [s.current] ++ escape body := by
      rw [← escape_append, hv]
      rfl
    rw [hsplit, List.length_append] at hg ⊢
    obtain ⟨t, ht, hsent, hidx, hstate⟩ := byte_stage hst hnow htx hi (hg.mono (by omega))
    have hcell : ∀ a, t.cell a = s.cell a := State.cell_of_buf hsent.buf
    have hnext := toNat_idx_add_one hi
    by_cases hdone : body = []
    · subst hdone
      have hlast : s.idx.toNat + 1 = (s.cell 1).toNat + 2 := by
        have := congrArg List.length hbody
        simp only [List.length_drop, State.length_cells, List.length_cons, List.length_nil] at this
        omega
      refine ⟨t, by simpa using ht, hsent, ?_, ?_⟩
      · rw [hstate, afterByte, if_pos hlast]
      · rw [hidx, hnext, hlast]
    · have hmore : ¬ s.idx.toNat + 1 = (s.cell 1).toNat + 2 := by
        intro hlast
        rw [hlast, List.drop_of_length_le (by rw [State.length_cells])] at hrest
        exact hdone hrest
      rw [afterByte, if_neg hmore] at hstate
      have hbody' : (t.cells ((t.cell 1).toNat + 2)).drop t.idx.toNat = body := by
        rw [hcell, hidx, hnext, State.cells_congr fun a _ => hcell a, ← hrest]
      obtain ⟨u, hu, hsent', hstate', hidx'⟩ :=
        ih (hstate.trans hst) (ht.now.trans hnow) hsent.escTx hdone hbody' (ht.grants _ hg)
      have hall := ht.trans hu
      rw [← sentTrace_append] at hall
      exact ⟨u, hall, hsent.trans hsent', hstate', by rw [hidx', hcell]⟩

/-- Settles O52: sending from the start of a frame. -/
theorem frameIsSent : Obligations.FrameIsSent := by
  intro ch s body hst hidx htx hnow hg
  have hne : body ≠ [] := by
    intro hnil
    have := congrArg List.length hnil
    simp [body, State.length_cells] at this
  obtain ⟨t, ht, hsent, hstate, hidx'⟩ := body_stage hst hnow htx hne (by rw [hidx]; rfl) hg
  exact ⟨t, ht.run, hstate, hidx', hsent.escTx, ht.trace, ht.runs, hsent.buf, hsent.hostRx, hsent.busRx,
    hsent.kept.csum, hsent.kept.busDir, hsent.kept.status, hsent.kept.diagReq, hsent.kept.diagCode, hsent.escRx⟩

end Sys2Proof.Machine
end

section
/-! PROOFS. The outcomes of an iteration (43_frame_relay_fsm.md section 4): stages put one after the other. -/

namespace Sys2Proof.Machine

/-- `buf` holds the logical bytes of the frame (R60, R120). -/
def Holds (f : Frame) (s : State) : Prop := s.cells (f.length.toNat + 2) = f.logical

theorem Holds.of_buf {f : Frame} {s t : State} (h : Holds f s) (hbuf : t.buf = s.buf) : Holds f t :=
  (State.cells_congr fun a _ => State.cell_of_buf hbuf a).trans h

section
variable {f : Frame} {s : State} (h : Holds f s)
include h

theorem Holds.cell_eq {a : Nat} (ha : a < f.length.toNat + 2) : f.logical[a]? = some (s.cell a) := by
  rw [← h]
  exact State.getElem?_cells s ha

theorem Holds.node_eq : s.cell 0 = f.node := (Option.some.inj (h.cell_eq (a := 0) (by omega))).symm

theorem Holds.length_eq : s.cell 1 = f.length := (Option.some.inj (h.cell_eq (a := 1) (by omega))).symm

theorem Holds.split : s.cells (f.length.toNat + 1) = f.covered ∧ s.cell (f.length.toNat + 1) = f.check := by
  have hsplit : s.cells (f.length.toNat + 1) ++ [s.cell (f.length.toNat + 1)] = f.covered ++ [f.check] := by
    rw [← State.cells_succ, ← Frame.logical_eq_covered]
    exact h
  obtain ⟨hcovered, hcheck⟩ := List.append_inj' hsplit rfl
  exact ⟨hcovered, (List.cons.inj hcheck).1⟩

variable (hc : f.counted = true)
include hc

/-- The comparison of a validate step says whether the frame is well formed (R61, R111). -/
theorem Holds.equal_eq_wf : (checkFrame s).out.equal = f.wf := by
  obtain ⟨hcovered, hcheck⟩ := h.split
  have hlen : s.length = f.length := h.length_eq
  rw [checkFrame_eq]
  simp only [hlen, hcovered, hcheck, Frame.wf, hc, Bool.true_and]
  exact BEq.comm

/-- The reset test of host validation on a whole frame (R124). -/
theorem Holds.isResetBroadcast_iff :
    isResetBroadcast Config.resetP0 Config.resetP1 (checkFrame s) = true ↔ isResetFrame f := by
  rw [Machine.isResetBroadcast_iff]
  simp only [checkFrame_cell, h.node_eq, h.length_eq, isResetFrame]
  refine and_congr_right fun _ => and_congr_right fun hlen => ?_
  have hlength : f.payload.length = 2 := by
    have hbody := Frame.length_body hc
    rw [hlen, List.length_append] at hbody
    exact Nat.succ.inj hbody
  obtain ⟨x, y, hxy⟩ := List.length_eq_two.mp hlength
  have h2 := h.cell_eq (a := 2) (by rw [hlen]; decide)
  have h3 := h.cell_eq (a := 3) (by rw [hlen]; decide)
  simp only [Frame.logical, hxy, List.cons_append, List.nil_append, List.getElem?_cons_succ,
    List.getElem?_cons_zero, Option.some.injEq] at h2 h3
  rw [← h2, ← h3, hxy]
  simp
end

/-- The environment's bytes are left alone. -/
def SameQueues (s t : State) : Prop := ∀ c, t.rxQueue c = s.rxQueue c

/-- A firing without events, as a stage that adds nothing to the trace. -/
theorem stage_of_silent {s u : State} (hrst : s.levels.rst = false) (hnow : s.now = []) (hf : Fires s.state s u)
    (hu : u.now = s.now) : Stage s (endCycle u) 1 [] := by
  have hstage := stage_of_fires hrst hnow hf
  rwa [hu, hnow, if_pos rfl] at hstage

/-- A firing with events, as a stage that adds them as one element of the trace. -/
theorem stage_of_events {s u : State} {e : Event} {es : List Event} (hrst : s.levels.rst = false) (hnow : s.now = [])
    (hf : Fires s.state s u) (hu : u.now = e :: es) : Stage s (endCycle u) 1 [e :: es] := by
  have hstage := stage_of_fires hrst hnow hf
  rwa [hu, if_neg (List.cons_ne_nil e es)] at hstage

/-- A frame is hunted and read (R117 to R120). -/
theorem receive_stage {ch : Chan} {f : Frame} {noise rest : List Byte} {s : State} (h : Inv s)
    (hst : s.state = huntState ch) (hc : f.counted = true) (hnoise : Config.sync ∉ noise)
    (hq : s.rxQueue ch = noise ++ f.wire ++ rest) (hg : grantsFor (noise.length + f.wire.length) s) :
    ∃ t, Stage s t (noise.length + f.wire.length) (takenTrace ch (noise ++ f.wire)) ∧
      t.state = validateState ch ∧ Holds f t ∧ t.rxQueue ch = rest ∧ SameOtherQueue ch s t := by
  have hlen : noise.length + f.wire.length = noise.length + 1 + (escape f.logical).length := by
    simp [Frame.wire]
    omega
  rw [hlen] at hg ⊢
  have hrx := h.escRx_clear (by rw [hst]; cases ch <;> rfl)
  obtain ⟨t, ht, hstate, hidx, hrx', hqueue, hother⟩ := hunt_stage (rest := escape f.logical ++ rest) hnoise hst
    h.no_leftover (by rw [hq, Frame.wire]; simp) (hg.mono (by omega))
  have hreads : ReadsOn ch f.logical (escape f.logical) t := by
    refine ⟨hstate, ht.now.trans h.no_leftover, ⟨f.length, rfl, Frame.length_logical hc⟩, f.logical, nofun, ?_, ?_⟩
    · simp [hidx, State.cells]
    · rw [hrx', hrx]
      exact unescape_escape f.logical
  obtain ⟨u, hu, hto⟩ := read_stage hreads hqueue (ht.grants _ hg)
  have hall := ht.trans hu
  rw [← takenTrace_append] at hall
  refine ⟨u, by simpa [Frame.wire] using hall, hto.state, ?_, hto.queue, hother.trans hto.other⟩
  rw [Holds, ← Frame.length_logical hc]
  exact hto.cells

/-- A frame is sent, the sync byte first and raw (R127, R128, R135). -/
theorem send_stage {ch : Chan} {f : Frame} {s : State} (h : Inv s) (hst : s.state = syncState ch) (hf : Holds f s)
    (hg : grantsFor f.wire.length s) :
    ∃ t, Stage s t f.wire.length (sentTrace ch f.wire) ∧ t.state = flushState ch ∧ SameQueues s t := by
  have hlen : f.wire.length = 1 + (escape f.logical).length := Nat.add_comm _ 1
  rw [hlen] at hg ⊢
  have htx := h.escTx_clear (by rw [hst]; cases ch <;> rfl)
  have hidx : s.idx.toNat = 0 := h.sync_idx (by rw [hst]; cases ch <;> rfl)
  have hg1 : grantsFor (0 + 1) s := hg.mono (by omega)
  have hfirst := stage_of_sent hg1.rst h.no_leftover (.syncSent ch hst (hg1.txReady ch)) rfl
  have hbody : (s.cells ((s.cell 1).toNat + 2)).drop s.idx.toNat = f.logical := by
    rw [hf.length_eq, hidx, List.drop_zero]
    exact hf
  obtain ⟨t, ht, hsent, hstate, _⟩ := body_stage (s := endCycle { s with state := bodyState ch, now := _ })
    (body := f.logical) rfl rfl htx nofun hbody (hfirst.grants _ hg)
  have hall := hfirst.trans ht
  rw [← sentTrace_append] at hall
  refine ⟨t, hall, hstate, fun c => ?_⟩
  cases c with
  | host => exact hsent.hostRx
  | bus => exact hsent.busRx

/-- A report is delivered (R178). -/
theorem report_stage {d : Diag} {s : State} (h : Inv s) (hst : s.state = reportingState d) (hg : grantsFor 1 s) :
    ∃ t, Stage s t 1 [[.diag d.code]] ∧ t.state = afterReport d ∧ t.diagCode = d.code ∧ t.buf = s.buf ∧
      SameQueues s t := by
  have hf : Fires s.state s _ := .delivered d hst hg.diagDone
  refine ⟨_, stage_of_events hg.rst h.no_leftover hf (by rw [h.no_leftover]; rfl), rfl, ?_, rfl,
    fun c => by cases c <;> rfl⟩
  exact h.diag_code d (by rw [hst, reportOf_reportingState])

/-- The bus is released once it has been flushed (R130). -/
theorem flush_bus_stage {s : State} (h : Inv s) (hst : s.state = .txBusFlush) (hg : grantsFor 1 s) :
    ∃ t, Stage s t 1 [[.bflush, .dir false]] ∧ t.state = .awaitBusSync ∧ SameQueues s t := by
  have hdir := h.bus_dir
  rw [hst] at hdir
  have hf : Fires s.state s _ := .flushed .bus hst (hg.txIdle .bus)
  exact ⟨_, stage_of_events hg.rst h.no_leftover hf (by simp [afterFlush, h.no_leftover, hdir, inBusWindow]), rfl,
    fun c => by simp⟩

/-- The indicator falls once the host has been flushed (R137). -/
theorem flush_host_stage {s : State} (h : Inv s) (hst : s.state = .txHostFlush) (hg : grantsFor 1 s) :
    ∃ t, Stage s t 1 [[.hflush, .status false]] ∧ t.state = .awaitHostSync ∧ SameQueues s t := by
  have hstatus := h.status_window
  rw [hst] at hstatus
  have hf : Fires s.state s _ := .flushed .host hst (hg.txIdle .host)
  exact ⟨_, stage_of_events hg.rst h.no_leftover hf (by simp [afterFlush, h.no_leftover, hstatus, inStatusWindow]),
    rfl, fun c => by simp⟩

section
variable {f : Frame} {s : State} (h : Inv s) (hf : Holds f s) (hc : f.counted = true)
include h hf hc

/-- A well-formed host frame that is not the reset-broadcast is forwarded (R123). -/
theorem forward_stage (hst : s.state = .validateHost) (hwf : f.wf = true) (hreset : ¬ isResetFrame f)
    (hg : grantsFor 1 s) :
    ∃ t, Stage s t 1 [[.dir true, .status true]] ∧ t.state = .txBusSync ∧ Holds f t ∧ SameQueues s t := by
  have hb := Bool.eq_false_iff.mpr (mt (hf.isResetBroadcast_iff hc).mp hreset)
  have hfires : Fires s.state s _ := .forwarded hst ((hf.equal_eq_wf hc).trans hwf) hb
  have hdir := h.bus_dir
  have hstatus := h.status_window
  rw [hst] at hdir hstatus
  refine ⟨_, stage_of_events hg.rst h.no_leftover hfires ?_, rfl, hf.of_buf ?_, fun c => ?_⟩
  · simp [forwardHost_eq, h.no_leftover, hdir, hstatus, inBusWindow, inStatusWindow]
  · simp [forwardHost_eq]
  · cases c <;> simp [forwardHost_eq, State.rxQueue]

/-- A wrong host frame, or the reset-broadcast, starts its report (R122, R124). -/
theorem drop_stage {code : Nibble} (hst : s.state = .validateHost)
    (hcase : f.wf = false ∧ code = 2#4 ∨ f.wf = true ∧ isResetFrame f ∧ code = 3#4) (hg : grantsFor 1 s) :
    ∃ d t, code = d.code ∧ afterReport d = .awaitHostSync ∧ Stage s t 1 [] ∧ t.state = reportingState d ∧
      SameQueues s t := by
  have hqueues : ∀ d, SameQueues s (endCycle (startReport d (checkFrame s))) := by
    intro d c
    cases c <;> simp [State.rxQueue]
  obtain ⟨hwf, rfl⟩ | ⟨hwf, hreset, rfl⟩ := hcase
  · have hfires : Fires s.state s _ := .dropped hst ((hf.equal_eq_wf hc).trans hwf)
    exact ⟨.hostCsum, _, rfl, rfl, stage_of_silent hg.rst h.no_leftover hfires (by simp), rfl, hqueues _⟩
  · have hfires : Fires s.state s _ :=
      .absorbed hst ((hf.equal_eq_wf hc).trans hwf) ((hf.isResetBroadcast_iff hc).mpr hreset)
    exact ⟨.resetAbsorbed, _, rfl, rfl, stage_of_silent hg.rst h.no_leftover hfires (by simp), rfl, hqueues _⟩

/-- The trace of the report that a reply starts, if its checksum is wrong (R133). -/
def replyReport (f : Frame) : List (List Event) := if f.wf then [] else [[.diag 4#4]]

/-- A reply goes on to be sent, right or wrong; a wrong one is reported first (R133, R134). -/
theorem reply_stage (hst : s.state = .validateBus) (hg : grantsFor (1 + (replyReport f).length) s) :
    ∃ t, Stage s t (1 + (replyReport f).length) (replyReport f) ∧ t.state = .txHostSync ∧ Holds f t ∧
      SameQueues s t := by
  cases hwf : f.wf with
  | true =>
    have hnone : replyReport f = [] := by rw [replyReport, hwf]; rfl
    have hfires : Fires s.state s _ := .rightReply hst ((hf.equal_eq_wf hc).trans hwf)
    rw [hnone] at hg ⊢
    refine ⟨_, stage_of_silent hg.rst h.no_leftover hfires (by simp), rfl, hf.of_buf (by simp), fun c => ?_⟩
    cases c <;> simp [State.rxQueue]
  | false =>
    have hsome : replyReport f = [[.diag 4#4]] := by rw [replyReport, hwf]; rfl
    have hfires : Fires s.state s _ := .wrongReply hst ((hf.equal_eq_wf hc).trans hwf)
    rw [hsome] at hg ⊢
    have hstart := stage_of_silent hg.rst h.no_leftover hfires (by simp)
    obtain ⟨t, ht, hstate, _, hbuf, hqueues⟩ := report_stage (d := .busCsum) (hstart.inv h) rfl (hstart.grants 1 hg)
    refine ⟨t, hstart.trans ht, hstate, (hf.of_buf (t := endCycle _) (by simp)).of_buf hbuf, fun c => ?_⟩
    rw [hqueues c]
    cases c <;> simp [State.rxQueue]
end

/-- Settles O54: the frame is read, its report is started, and delivered. -/
theorem hostFrameIsDroppedOrAbsorbed : Obligations.HostFrameIsDroppedOrAbsorbed := by
  intro s f noise rest code h hst hc hnoise hq hcase hg
  obtain ⟨t₁, hread, hst₁, hf, hq₁, hother⟩ := receive_stage (ch := .host) h hst hc hnoise hq (hg.mono (by omega))
  have h₁ := hread.inv h
  have hg₁ : grantsFor (1 + 1) t₁ := hread.grants 2 hg
  obtain ⟨d, t₂, rfl, hafter, hdrop, hst₂, hqueues₂⟩ := drop_stage h₁ hf hc hst₁ hcase (hg₁.mono (by omega))
  have h₂ := hdrop.inv h₁
  obtain ⟨t, hreport, hst₃, hcode, _, hqueues₃⟩ := report_stage h₂ hst₂ (hdrop.grants 1 hg₁)
  have hall := (hread.trans hdrop).trans hreport
  have h₃ := hall.inv h
  have hstate : t.state = .awaitHostSync := hst₃.trans hafter
  refine ⟨t, hall.run, hstate, ?_, ?_, hall.runs, ?_, ?_, ?_, hcode, ?_⟩
  · exact (hqueues₃ .host).trans ((hqueues₂ .host).trans hq₁)
  · exact (hqueues₃ .bus).trans ((hqueues₂ .bus).trans (hother .bus nofun))
  · rw [h₃.bus_dir, hstate]; rfl
  · rw [h₃.status_window, hstate]; rfl
  · rw [h₃.diag_req, hstate]; rfl
  · simpa using hall.trace

/-- Settles O53: the host frame is read, checked and sent, then its reply, with a report between if that is wrong. -/
theorem framePairIsRelayed : Obligations.FramePairIsRelayed := by
  intro s f g hostNoise busNoise hostRest busRest h hst hwf hreset hc hhostNoise hbusNoise hhost hbus diag n hg
  have hn : n = hostNoise.length + f.wire.length + (1 + (f.wire.length + (1 + (busNoise.length + g.wire.length +
      (1 + (replyReport g).length + (g.wire.length + 1)))))) := by
    have hdiag : diag.length = (replyReport g).length := rfl
    simp only [n, hdiag]
    omega
  rw [hn] at hg ⊢
  obtain ⟨t₁, hread, hst₁, hf₁, hq₁, hother₁⟩ :=
    receive_stage (ch := .host) h hst (Frame.wf_counted hwf) hhostNoise hhost (hg.mono (Nat.le_add_right ..))
  have h₁ := hread.inv h
  have hg₁ := hread.grants _ hg
  obtain ⟨t₂, hforward, hst₂, hf₂, hq₂⟩ :=
    forward_stage h₁ hf₁ (Frame.wf_counted hwf) hst₁ hwf hreset (hg₁.mono (Nat.le_add_right ..))
  have h₂ := hforward.inv h₁
  have hg₂ := hforward.grants _ hg₁
  obtain ⟨t₃, hsend, hst₃, hq₃⟩ := send_stage (ch := .bus) h₂ hst₂ hf₂ (hg₂.mono (Nat.le_add_right ..))
  have h₃ := hsend.inv h₂
  have hg₃ := hsend.grants _ hg₂
  obtain ⟨t₄, hflush, hst₄, hq₄⟩ := flush_bus_stage h₃ hst₃ (hg₃.mono (Nat.le_add_right ..))
  have h₄ := hflush.inv h₃
  have hg₄ := hflush.grants _ hg₃
  have hbus₄ : t₄.rxQueue .bus = busNoise ++ g.wire ++ busRest := by
    rw [hq₄, hq₃, hq₂, hother₁ .bus nofun]
    exact hbus
  obtain ⟨t₅, hread', hst₅, hf₅, hq₅, hother₅⟩ :=
    receive_stage (ch := .bus) h₄ hst₄ hc hbusNoise hbus₄ (hg₄.mono (Nat.le_add_right ..))
  have h₅ := hread'.inv h₄
  have hg₅ := hread'.grants _ hg₄
  obtain ⟨t₆, hreply, hst₆, hf₆, hq₆⟩ := reply_stage h₅ hf₅ hc hst₅ (hg₅.mono (Nat.le_add_right ..))
  have h₆ := hreply.inv h₅
  have hg₆ := hreply.grants _ hg₅
  obtain ⟨t₇, hsend', hst₇, hq₇⟩ := send_stage (ch := .host) h₆ hst₆ hf₆ (hg₆.mono (Nat.le_add_right ..))
  have hg₇ := hsend'.grants _ hg₆
  obtain ⟨t₈, hflush', hst₈, hq₈⟩ := flush_host_stage (hsend'.inv h₆) hst₇ hg₇
  have hall := hread.trans (hforward.trans (hsend.trans (hflush.trans (hread'.trans (hreply.trans
    (hsend'.trans hflush'))))))
  refine ⟨t₈, hall.run, hst₈, ?_, ?_, hall.runs, ?_⟩
  · exact (hq₈ .host).trans (by rw [hq₇, hq₆, hother₅ .host nofun, hq₄, hq₃, hq₂, hq₁])
  · exact (hq₈ .bus).trans (by rw [hq₇, hq₆, hq₅])
  · rw [hall.trace]
    simp only [← List.append_assoc]
    rfl

end Sys2Proof.Machine
end
